-- ==== Sys2Proof/Word.lean ====
section
/-! DEFINITION. The two word widths of the machine (spec/00_scope.md R8, R9): data are bytes, addresses and the
program counter are 16-bit words. Every width in the model is one of these two, so it is fixed, not a parameter. -/

namespace Sys2Proof

/-- `XLEN` (R8): A, X, Y, SP, P and every data value, 8 bits. -/
abbrev Byte := BitVec 8

/-- `ALEN` (R8): PC and every address, 16 bits. -/
abbrev Addr := BitVec 16

end Sys2Proof
end

