-- ==== Sys2Proof/Syntax.lean ====
section
/-! DEFINITION. The instruction set as syntax (spec/30_encoding.md R70 to R76): one constructor of `Instr` per row of
spec/opcode_table.json, that is one per (mnemonic, addressing mode) pair, each carrying the operand its format gives it.
Every operand value is legal (R82), so an operand is a byte or an address and nothing narrower. -/

namespace Sys2Proof

/-- The 57 mnemonics of 00_scope.md R2, in the source's order of behavioural classes. -/
inductive Mnemonic where
  | lda | ldx | ldy
  | sta | stx | sty | stz
  | adc | sbc
  | inc | dec | inx | iny | dex | dey
  | and | ora | eor
  | asl | lsr | rol | ror
  | cmp | cpx | cpy
  | bcc | bcs | beq | bne | bmi | bpl | bvc | bvs | bra
  | clc | sec | cld | sed | cli | sei | clv
  | pha | php | phx | phy | pla | plp | plx | ply | tsx | txs
  | tsb | trb
  | jmp | brk | nop | rti
deriving DecidableEq, Repr

/-- The 13 formats of R71. -/
inductive Format where
  | imp | acc | imm | zp | zpx | zpy | abs | absx | absy | indx | indy | zpi | rel
deriving DecidableEq, Repr

/-- The nine addressing modes that resolve to an address (R95, R97 to R105), each with the operand bytes it consumed. -/
inductive AddrMode where
  | zp (zp : Byte)      -- Zero Page
  | zpx (zp : Byte)     -- Zero Page,X
  | zpy (zp : Byte)     -- Zero Page,Y
  | abs (addr : Addr)   -- Absolute
  | absx (addr : Addr)  -- Absolute,X
  | absy (addr : Addr)  -- Absolute,Y
  | indx (zp : Byte)    -- (Indirect,X)
  | indy (zp : Byte)    -- (Indirect),Y
  | zpi (zp : Byte)     -- (Indirect)
deriving DecidableEq, Repr

/-- What follows the mnemonic: one alternative per kind of operand of R71. -/
inductive Operand where
  | implied
  | acc
  | imm (imm : Byte)
  | mem (mode : AddrMode)
  | rel (disp : Byte)
deriving DecidableEq, Repr

/-- One constructor per row of spec/opcode_table.json (R74): the handlers of the dispatch table. -/
inductive Instr where
  -- Load (41_load_store.md)
  | ldaImm (imm : Byte) | ldaZp (zp : Byte) | ldaZpx (zp : Byte) | ldaAbs (addr : Addr) | ldaAbsx (addr : Addr)
  | ldaAbsy (addr : Addr) | ldaIndx (zp : Byte) | ldaIndy (zp : Byte) | ldaZpi (zp : Byte)
  | ldxImm (imm : Byte) | ldxZp (zp : Byte) | ldxZpy (zp : Byte) | ldxAbs (addr : Addr) | ldxAbsy (addr : Addr)
  | ldyImm (imm : Byte) | ldyZp (zp : Byte) | ldyZpx (zp : Byte) | ldyAbs (addr : Addr) | ldyAbsx (addr : Addr)
  -- Store (41_load_store.md)
  | staZp (zp : Byte) | staZpx (zp : Byte) | staAbs (addr : Addr) | staAbsx (addr : Addr)
  | staAbsy (addr : Addr) | staIndx (zp : Byte) | staIndy (zp : Byte) | staZpi (zp : Byte)
  | stxZp (zp : Byte) | stxZpy (zp : Byte) | stxAbs (addr : Addr)
  | styZp (zp : Byte) | styZpx (zp : Byte) | styAbs (addr : Addr)
  | stzZp (zp : Byte) | stzZpx (zp : Byte) | stzAbs (addr : Addr) | stzAbsx (addr : Addr)
  -- Arithmetic (42_arith_incdec.md)
  | adcImm (imm : Byte) | adcZp (zp : Byte) | adcZpx (zp : Byte) | adcAbs (addr : Addr) | adcAbsx (addr : Addr)
  | adcAbsy (addr : Addr) | adcIndx (zp : Byte) | adcIndy (zp : Byte) | adcZpi (zp : Byte)
  | sbcImm (imm : Byte) | sbcZp (zp : Byte) | sbcZpx (zp : Byte) | sbcAbs (addr : Addr) | sbcAbsx (addr : Addr)
  | sbcAbsy (addr : Addr) | sbcIndx (zp : Byte) | sbcIndy (zp : Byte) | sbcZpi (zp : Byte)
  -- Increment and decrement (42_arith_incdec.md)
  | incZp (zp : Byte) | incZpx (zp : Byte) | incAbs (addr : Addr) | incAbsx (addr : Addr)
  | decZp (zp : Byte) | decZpx (zp : Byte) | decAbs (addr : Addr) | decAbsx (addr : Addr)
  | inx
  | iny
  | dex
  | dey
  -- Logical (43_logic_shift.md)
  | andImm (imm : Byte) | andZp (zp : Byte) | andZpx (zp : Byte) | andAbs (addr : Addr) | andAbsx (addr : Addr)
  | andAbsy (addr : Addr) | andIndx (zp : Byte) | andIndy (zp : Byte) | andZpi (zp : Byte)
  | oraImm (imm : Byte) | oraZp (zp : Byte) | oraZpx (zp : Byte) | oraAbs (addr : Addr) | oraAbsx (addr : Addr)
  | oraAbsy (addr : Addr) | oraIndx (zp : Byte) | oraIndy (zp : Byte) | oraZpi (zp : Byte)
  | eorImm (imm : Byte) | eorZp (zp : Byte) | eorZpx (zp : Byte) | eorAbs (addr : Addr) | eorAbsx (addr : Addr)
  | eorAbsy (addr : Addr) | eorIndx (zp : Byte) | eorIndy (zp : Byte) | eorZpi (zp : Byte)
  -- Shift and rotate (43_logic_shift.md)
  | aslAcc | aslZp (zp : Byte) | aslZpx (zp : Byte) | aslAbs (addr : Addr) | aslAbsx (addr : Addr)
  | lsrAcc | lsrZp (zp : Byte) | lsrZpx (zp : Byte) | lsrAbs (addr : Addr) | lsrAbsx (addr : Addr)
  | rolAcc | rolZp (zp : Byte) | rolZpx (zp : Byte) | rolAbs (addr : Addr) | rolAbsx (addr : Addr)
  | rorAcc | rorZp (zp : Byte) | rorZpx (zp : Byte) | rorAbs (addr : Addr) | rorAbsx (addr : Addr)
  -- Compare (44_compare_branch.md)
  | cmpImm (imm : Byte) | cmpZp (zp : Byte) | cmpZpx (zp : Byte) | cmpAbs (addr : Addr) | cmpAbsx (addr : Addr)
  | cmpAbsy (addr : Addr) | cmpIndx (zp : Byte) | cmpIndy (zp : Byte) | cmpZpi (zp : Byte)
  | cpxImm (imm : Byte) | cpxZp (zp : Byte) | cpxAbs (addr : Addr)
  | cpyImm (imm : Byte) | cpyZp (zp : Byte) | cpyAbs (addr : Addr)
  -- Branch (44_compare_branch.md)
  | bcc (disp : Byte)
  | bcs (disp : Byte)
  | beq (disp : Byte)
  | bne (disp : Byte)
  | bmi (disp : Byte)
  | bpl (disp : Byte)
  | bvc (disp : Byte)
  | bvs (disp : Byte)
  | bra (disp : Byte)
  -- Status-flag set and clear (45_flags_stack.md)
  | clc
  | sec
  | cld
  | sed
  | cli
  | sei
  | clv
  -- Stack (45_flags_stack.md)
  | pha
  | php
  | phx
  | phy
  | pla
  | plp
  | plx
  | ply
  | tsx
  | txs
  -- Test-and-set, test-and-reset bits (46_bits_control.md)
  | tsbZp (zp : Byte) | tsbAbs (addr : Addr)
  | trbZp (zp : Byte) | trbAbs (addr : Addr)
  -- Control (46_bits_control.md)
  | jmp (addr : Addr)
  | brk
  | nop
  | rti
deriving DecidableEq, Repr

end Sys2Proof
end

