-- ==== Sys2Proof/Decode.lean ====
section
/-! DEFINITION. Bytes to instructions and back (spec/30_encoding.md R70 to R76, R80, R82): the byte-order helpers, the
dispatch table as R75 draws it, the decoder, the encoder (from R74), and the view of an instruction as a mnemonic and an
operand, from which its format and length follow. -/

namespace Sys2Proof

/-! ## Byte order (R55, R73) -/

/-- `{hi, lo}` (R9): the word whose low byte is `lo`. -/
def joinBytes (hi lo : Byte) : Addr := hi ++ lo

/-- `w[7:0]` (R9). -/
def lowByte (w : Addr) : Byte := w.extractLsb' 0 8

/-- `w[15:8]` (R9). -/
def highByte (w : Addr) : Byte := w.extractLsb' 8 8

/-- A 16-bit quantity as it lies in memory: low byte first (R55). -/
def wordBytes (w : Addr) : List Byte := [lowByte w, highByte w]

/-! ## The view of an instruction: mnemonic and operand -/

/-- Each constructor's mnemonic and operand, the columns of R74. -/
def Instr.view : Instr → Mnemonic × Operand
  | .ldaImm v => (.lda, .imm v)
  | .ldaZp z => (.lda, .mem (.zp z))
  | .ldaZpx z => (.lda, .mem (.zpx z))
  | .ldaAbs w => (.lda, .mem (.abs w))
  | .ldaAbsx w => (.lda, .mem (.absx w))
  | .ldaAbsy w => (.lda, .mem (.absy w))
  | .ldaIndx z => (.lda, .mem (.indx z))
  | .ldaIndy z => (.lda, .mem (.indy z))
  | .ldaZpi z => (.lda, .mem (.zpi z))
  | .ldxImm v => (.ldx, .imm v)
  | .ldxZp z => (.ldx, .mem (.zp z))
  | .ldxZpy z => (.ldx, .mem (.zpy z))
  | .ldxAbs w => (.ldx, .mem (.abs w))
  | .ldxAbsy w => (.ldx, .mem (.absy w))
  | .ldyImm v => (.ldy, .imm v)
  | .ldyZp z => (.ldy, .mem (.zp z))
  | .ldyZpx z => (.ldy, .mem (.zpx z))
  | .ldyAbs w => (.ldy, .mem (.abs w))
  | .ldyAbsx w => (.ldy, .mem (.absx w))
  | .staZp z => (.sta, .mem (.zp z))
  | .staZpx z => (.sta, .mem (.zpx z))
  | .staAbs w => (.sta, .mem (.abs w))
  | .staAbsx w => (.sta, .mem (.absx w))
  | .staAbsy w => (.sta, .mem (.absy w))
  | .staIndx z => (.sta, .mem (.indx z))
  | .staIndy z => (.sta, .mem (.indy z))
  | .staZpi z => (.sta, .mem (.zpi z))
  | .stxZp z => (.stx, .mem (.zp z))
  | .stxZpy z => (.stx, .mem (.zpy z))
  | .stxAbs w => (.stx, .mem (.abs w))
  | .styZp z => (.sty, .mem (.zp z))
  | .styZpx z => (.sty, .mem (.zpx z))
  | .styAbs w => (.sty, .mem (.abs w))
  | .stzZp z => (.stz, .mem (.zp z))
  | .stzZpx z => (.stz, .mem (.zpx z))
  | .stzAbs w => (.stz, .mem (.abs w))
  | .stzAbsx w => (.stz, .mem (.absx w))
  | .adcImm v => (.adc, .imm v)
  | .adcZp z => (.adc, .mem (.zp z))
  | .adcZpx z => (.adc, .mem (.zpx z))
  | .adcAbs w => (.adc, .mem (.abs w))
  | .adcAbsx w => (.adc, .mem (.absx w))
  | .adcAbsy w => (.adc, .mem (.absy w))
  | .adcIndx z => (.adc, .mem (.indx z))
  | .adcIndy z => (.adc, .mem (.indy z))
  | .adcZpi z => (.adc, .mem (.zpi z))
  | .sbcImm v => (.sbc, .imm v)
  | .sbcZp z => (.sbc, .mem (.zp z))
  | .sbcZpx z => (.sbc, .mem (.zpx z))
  | .sbcAbs w => (.sbc, .mem (.abs w))
  | .sbcAbsx w => (.sbc, .mem (.absx w))
  | .sbcAbsy w => (.sbc, .mem (.absy w))
  | .sbcIndx z => (.sbc, .mem (.indx z))
  | .sbcIndy z => (.sbc, .mem (.indy z))
  | .sbcZpi z => (.sbc, .mem (.zpi z))
  | .incZp z => (.inc, .mem (.zp z))
  | .incZpx z => (.inc, .mem (.zpx z))
  | .incAbs w => (.inc, .mem (.abs w))
  | .incAbsx w => (.inc, .mem (.absx w))
  | .decZp z => (.dec, .mem (.zp z))
  | .decZpx z => (.dec, .mem (.zpx z))
  | .decAbs w => (.dec, .mem (.abs w))
  | .decAbsx w => (.dec, .mem (.absx w))
  | .inx => (.inx, .implied)
  | .iny => (.iny, .implied)
  | .dex => (.dex, .implied)
  | .dey => (.dey, .implied)
  | .andImm v => (.and, .imm v)
  | .andZp z => (.and, .mem (.zp z))
  | .andZpx z => (.and, .mem (.zpx z))
  | .andAbs w => (.and, .mem (.abs w))
  | .andAbsx w => (.and, .mem (.absx w))
  | .andAbsy w => (.and, .mem (.absy w))
  | .andIndx z => (.and, .mem (.indx z))
  | .andIndy z => (.and, .mem (.indy z))
  | .andZpi z => (.and, .mem (.zpi z))
  | .oraImm v => (.ora, .imm v)
  | .oraZp z => (.ora, .mem (.zp z))
  | .oraZpx z => (.ora, .mem (.zpx z))
  | .oraAbs w => (.ora, .mem (.abs w))
  | .oraAbsx w => (.ora, .mem (.absx w))
  | .oraAbsy w => (.ora, .mem (.absy w))
  | .oraIndx z => (.ora, .mem (.indx z))
  | .oraIndy z => (.ora, .mem (.indy z))
  | .oraZpi z => (.ora, .mem (.zpi z))
  | .eorImm v => (.eor, .imm v)
  | .eorZp z => (.eor, .mem (.zp z))
  | .eorZpx z => (.eor, .mem (.zpx z))
  | .eorAbs w => (.eor, .mem (.abs w))
  | .eorAbsx w => (.eor, .mem (.absx w))
  | .eorAbsy w => (.eor, .mem (.absy w))
  | .eorIndx z => (.eor, .mem (.indx z))
  | .eorIndy z => (.eor, .mem (.indy z))
  | .eorZpi z => (.eor, .mem (.zpi z))
  | .aslAcc => (.asl, .acc)
  | .aslZp z => (.asl, .mem (.zp z))
  | .aslZpx z => (.asl, .mem (.zpx z))
  | .aslAbs w => (.asl, .mem (.abs w))
  | .aslAbsx w => (.asl, .mem (.absx w))
  | .lsrAcc => (.lsr, .acc)
  | .lsrZp z => (.lsr, .mem (.zp z))
  | .lsrZpx z => (.lsr, .mem (.zpx z))
  | .lsrAbs w => (.lsr, .mem (.abs w))
  | .lsrAbsx w => (.lsr, .mem (.absx w))
  | .rolAcc => (.rol, .acc)
  | .rolZp z => (.rol, .mem (.zp z))
  | .rolZpx z => (.rol, .mem (.zpx z))
  | .rolAbs w => (.rol, .mem (.abs w))
  | .rolAbsx w => (.rol, .mem (.absx w))
  | .rorAcc => (.ror, .acc)
  | .rorZp z => (.ror, .mem (.zp z))
  | .rorZpx z => (.ror, .mem (.zpx z))
  | .rorAbs w => (.ror, .mem (.abs w))
  | .rorAbsx w => (.ror, .mem (.absx w))
  | .cmpImm v => (.cmp, .imm v)
  | .cmpZp z => (.cmp, .mem (.zp z))
  | .cmpZpx z => (.cmp, .mem (.zpx z))
  | .cmpAbs w => (.cmp, .mem (.abs w))
  | .cmpAbsx w => (.cmp, .mem (.absx w))
  | .cmpAbsy w => (.cmp, .mem (.absy w))
  | .cmpIndx z => (.cmp, .mem (.indx z))
  | .cmpIndy z => (.cmp, .mem (.indy z))
  | .cmpZpi z => (.cmp, .mem (.zpi z))
  | .cpxImm v => (.cpx, .imm v)
  | .cpxZp z => (.cpx, .mem (.zp z))
  | .cpxAbs w => (.cpx, .mem (.abs w))
  | .cpyImm v => (.cpy, .imm v)
  | .cpyZp z => (.cpy, .mem (.zp z))
  | .cpyAbs w => (.cpy, .mem (.abs w))
  | .bcc d => (.bcc, .rel d)
  | .bcs d => (.bcs, .rel d)
  | .beq d => (.beq, .rel d)
  | .bne d => (.bne, .rel d)
  | .bmi d => (.bmi, .rel d)
  | .bpl d => (.bpl, .rel d)
  | .bvc d => (.bvc, .rel d)
  | .bvs d => (.bvs, .rel d)
  | .bra d => (.bra, .rel d)
  | .clc => (.clc, .implied)
  | .sec => (.sec, .implied)
  | .cld => (.cld, .implied)
  | .sed => (.sed, .implied)
  | .cli => (.cli, .implied)
  | .sei => (.sei, .implied)
  | .clv => (.clv, .implied)
  | .pha => (.pha, .implied)
  | .php => (.php, .implied)
  | .phx => (.phx, .implied)
  | .phy => (.phy, .implied)
  | .pla => (.pla, .implied)
  | .plp => (.plp, .implied)
  | .plx => (.plx, .implied)
  | .ply => (.ply, .implied)
  | .tsx => (.tsx, .implied)
  | .txs => (.txs, .implied)
  | .tsbZp z => (.tsb, .mem (.zp z))
  | .tsbAbs w => (.tsb, .mem (.abs w))
  | .trbZp z => (.trb, .mem (.zp z))
  | .trbAbs w => (.trb, .mem (.abs w))
  | .jmp w => (.jmp, .mem (.abs w))
  | .brk => (.brk, .implied)
  | .nop => (.nop, .implied)
  | .rti => (.rti, .implied)

def Instr.mnemonic (i : Instr) : Mnemonic := i.view.1

def Instr.operand (i : Instr) : Operand := i.view.2

/-- The format of R71 an addressing mode belongs to. -/
def AddrMode.format : AddrMode → Format
  | .zp _ => .zp
  | .zpx _ => .zpx
  | .zpy _ => .zpy
  | .abs _ => .abs
  | .absx _ => .absx
  | .absy _ => .absy
  | .indx _ => .indx
  | .indy _ => .indy
  | .zpi _ => .zpi

def Operand.format : Operand → Format
  | .implied => .imp
  | .acc => .acc
  | .imm _ => .imm
  | .mem m => m.format
  | .rel _ => .rel

def Instr.format (i : Instr) : Format := i.operand.format

/-- The length column of R71: the opcode byte and 0, 1 or 2 operand bytes. -/
def Format.length : Format → Nat
  | .imp | .acc => 1
  | .imm | .zp | .zpx | .zpy | .indx | .indy | .zpi | .rel => 2
  | .abs | .absx | .absy => 3

def Instr.length (i : Instr) : Nat := i.format.length

/-! ## Encoding (R71, R74) -/

/-- The operand bytes at ascending addresses (R71): one byte as it stands, an address low byte first. -/
def AddrMode.bytes : AddrMode → List Byte
  | .zp z | .zpx z | .zpy z | .indx z | .indy z | .zpi z => [z]
  | .abs w | .absx w | .absy w => wordBytes w

def Operand.bytes : Operand → List Byte
  | .implied | .acc => []
  | .imm v => [v]
  | .mem m => m.bytes
  | .rel d => [d]

/-- The opcode byte of each (mnemonic, format) pair: the table of R74, row by row. -/
def Instr.opcode : Instr → Byte
  | .ldaImm _ => 0xA9#8 | .ldaZp _ => 0xA5#8 | .ldaZpx _ => 0xB5#8 | .ldaAbs _ => 0xAD#8 | .ldaAbsx _ => 0xBD#8
  | .ldaAbsy _ => 0xB9#8 | .ldaIndx _ => 0xA1#8 | .ldaIndy _ => 0xB1#8 | .ldaZpi _ => 0xB2#8
  | .ldxImm _ => 0xA2#8 | .ldxZp _ => 0xA6#8 | .ldxZpy _ => 0xB6#8 | .ldxAbs _ => 0xAE#8 | .ldxAbsy _ => 0xBE#8
  | .ldyImm _ => 0xA0#8 | .ldyZp _ => 0xA4#8 | .ldyZpx _ => 0xB4#8 | .ldyAbs _ => 0xAC#8 | .ldyAbsx _ => 0xBC#8
  | .staZp _ => 0x85#8 | .staZpx _ => 0x95#8 | .staAbs _ => 0x8D#8 | .staAbsx _ => 0x9D#8
  | .staAbsy _ => 0x99#8 | .staIndx _ => 0x81#8 | .staIndy _ => 0x91#8 | .staZpi _ => 0x92#8
  | .stxZp _ => 0x86#8 | .stxZpy _ => 0x96#8 | .stxAbs _ => 0x8E#8
  | .styZp _ => 0x84#8 | .styZpx _ => 0x94#8 | .styAbs _ => 0x8C#8
  | .stzZp _ => 0x64#8 | .stzZpx _ => 0x74#8 | .stzAbs _ => 0x9C#8 | .stzAbsx _ => 0x9E#8
  | .adcImm _ => 0x69#8 | .adcZp _ => 0x65#8 | .adcZpx _ => 0x75#8 | .adcAbs _ => 0x6D#8 | .adcAbsx _ => 0x7D#8
  | .adcAbsy _ => 0x79#8 | .adcIndx _ => 0x61#8 | .adcIndy _ => 0x71#8 | .adcZpi _ => 0x72#8
  | .sbcImm _ => 0xE9#8 | .sbcZp _ => 0xE5#8 | .sbcZpx _ => 0xF5#8 | .sbcAbs _ => 0xED#8 | .sbcAbsx _ => 0xFD#8
  | .sbcAbsy _ => 0xF9#8 | .sbcIndx _ => 0xE1#8 | .sbcIndy _ => 0xF1#8 | .sbcZpi _ => 0xF2#8
  | .incZp _ => 0xE6#8 | .incZpx _ => 0xF6#8 | .incAbs _ => 0xEE#8 | .incAbsx _ => 0xFE#8
  | .decZp _ => 0xC6#8 | .decZpx _ => 0xD6#8 | .decAbs _ => 0xCE#8 | .decAbsx _ => 0xDE#8
  | .inx => 0xE8#8
  | .iny => 0xC8#8
  | .dex => 0xCA#8
  | .dey => 0x88#8
  | .andImm _ => 0x29#8 | .andZp _ => 0x25#8 | .andZpx _ => 0x35#8 | .andAbs _ => 0x2D#8 | .andAbsx _ => 0x3D#8
  | .andAbsy _ => 0x39#8 | .andIndx _ => 0x21#8 | .andIndy _ => 0x31#8 | .andZpi _ => 0x32#8
  | .oraImm _ => 0x09#8 | .oraZp _ => 0x05#8 | .oraZpx _ => 0x15#8 | .oraAbs _ => 0x0D#8 | .oraAbsx _ => 0x1D#8
  | .oraAbsy _ => 0x19#8 | .oraIndx _ => 0x01#8 | .oraIndy _ => 0x11#8 | .oraZpi _ => 0x12#8
  | .eorImm _ => 0x49#8 | .eorZp _ => 0x45#8 | .eorZpx _ => 0x55#8 | .eorAbs _ => 0x4D#8 | .eorAbsx _ => 0x5D#8
  | .eorAbsy _ => 0x59#8 | .eorIndx _ => 0x41#8 | .eorIndy _ => 0x51#8 | .eorZpi _ => 0x52#8
  | .aslAcc => 0x0A#8 | .aslZp _ => 0x06#8 | .aslZpx _ => 0x16#8 | .aslAbs _ => 0x0E#8 | .aslAbsx _ => 0x1E#8
  | .lsrAcc => 0x4A#8 | .lsrZp _ => 0x46#8 | .lsrZpx _ => 0x56#8 | .lsrAbs _ => 0x4E#8 | .lsrAbsx _ => 0x5E#8
  | .rolAcc => 0x2A#8 | .rolZp _ => 0x26#8 | .rolZpx _ => 0x36#8 | .rolAbs _ => 0x2E#8 | .rolAbsx _ => 0x3E#8
  | .rorAcc => 0x6A#8 | .rorZp _ => 0x66#8 | .rorZpx _ => 0x76#8 | .rorAbs _ => 0x6E#8 | .rorAbsx _ => 0x7E#8
  | .cmpImm _ => 0xC9#8 | .cmpZp _ => 0xC5#8 | .cmpZpx _ => 0xD5#8 | .cmpAbs _ => 0xCD#8 | .cmpAbsx _ => 0xDD#8
  | .cmpAbsy _ => 0xD9#8 | .cmpIndx _ => 0xC1#8 | .cmpIndy _ => 0xD1#8 | .cmpZpi _ => 0xD2#8
  | .cpxImm _ => 0xE0#8 | .cpxZp _ => 0xE4#8 | .cpxAbs _ => 0xEC#8
  | .cpyImm _ => 0xC0#8 | .cpyZp _ => 0xC4#8 | .cpyAbs _ => 0xCC#8
  | .bcc _ => 0x90#8
  | .bcs _ => 0xB0#8
  | .beq _ => 0xF0#8
  | .bne _ => 0xD0#8
  | .bmi _ => 0x30#8
  | .bpl _ => 0x10#8
  | .bvc _ => 0x50#8
  | .bvs _ => 0x70#8
  | .bra _ => 0x80#8
  | .clc => 0x18#8
  | .sec => 0x38#8
  | .cld => 0xD8#8
  | .sed => 0xF8#8
  | .cli => 0x58#8
  | .sei => 0x78#8
  | .clv => 0xB8#8
  | .pha => 0x48#8
  | .php => 0x08#8
  | .phx => 0xDA#8
  | .phy => 0x5A#8
  | .pla => 0x68#8
  | .plp => 0x28#8
  | .plx => 0xFA#8
  | .ply => 0x7A#8
  | .tsx => 0xBA#8
  | .txs => 0x9A#8
  | .tsbZp _ => 0x04#8 | .tsbAbs _ => 0x0C#8
  | .trbZp _ => 0x14#8 | .trbAbs _ => 0x1C#8
  | .jmp _ => 0x4C#8
  | .brk => 0x00#8
  | .nop => 0xEA#8
  | .rti => 0x40#8

/-- The bytes of an instruction at ascending addresses: opcode, then operand bytes (R70, R71). -/
def encode (i : Instr) : List Byte := i.opcode :: i.operand.bytes

/-! ## The dispatch table (R74, R75) -/

/-- What the table attaches to an opcode byte: how many operand bytes the handler consumes and the instruction they make. -/
inductive Handler where
  | noOperand (i : Instr)
  | oneByte (f : Byte → Instr)
  | twoBytes (f : Addr → Instr)

/-- The length of the instruction a handler makes: the opcode byte and its operand bytes (R70). -/
def Handler.length : Handler → Nat
  | .noOperand _ => 1
  | .oneByte _ => 2
  | .twoBytes _ => 3

/-- A byte value with no handler (R80): "." in R75. -/
def un : Option Handler := none
/-- A handler of a format with no operand byte (R71: IMP, ACC). -/
def h0 (i : Instr) : Option Handler := some (.noOperand i)
/-- A handler of a format with one operand byte (R71: IMM, ZP, ZPX, ZPY, INDX, INDY, ZPI, REL). -/
def h1 (f : Byte → Instr) : Option Handler := some (.oneByte f)
/-- A handler of a format with two operand bytes (R71: ABS, ABSX, ABSY). -/
def h2 (f : Addr → Instr) : Option Handler := some (.twoBytes f)

/-- Row 0x of R75. -/
def row0 : List (Option Handler) :=
  [h0 .brk, h1 .oraIndx, un, un, h1 .tsbZp, h1 .oraZp, h1 .aslZp, un,
   h0 .php, h1 .oraImm, h0 .aslAcc, un, h2 .tsbAbs, h2 .oraAbs, h2 .aslAbs, un]
/-- Row 1x of R75. -/
def row1 : List (Option Handler) :=
  [h1 .bpl, h1 .oraIndy, h1 .oraZpi, un, h1 .trbZp, h1 .oraZpx, h1 .aslZpx, un,
   h0 .clc, h2 .oraAbsy, un, un, h2 .trbAbs, h2 .oraAbsx, h2 .aslAbsx, un]
/-- Row 2x of R75. -/
def row2 : List (Option Handler) :=
  [un, h1 .andIndx, un, un, un, h1 .andZp, h1 .rolZp, un,
   h0 .plp, h1 .andImm, h0 .rolAcc, un, un, h2 .andAbs, h2 .rolAbs, un]
/-- Row 3x of R75. -/
def row3 : List (Option Handler) :=
  [h1 .bmi, h1 .andIndy, h1 .andZpi, un, un, h1 .andZpx, h1 .rolZpx, un,
   h0 .sec, h2 .andAbsy, un, un, un, h2 .andAbsx, h2 .rolAbsx, un]
/-- Row 4x of R75. -/
def row4 : List (Option Handler) :=
  [h0 .rti, h1 .eorIndx, un, un, un, h1 .eorZp, h1 .lsrZp, un,
   h0 .pha, h1 .eorImm, h0 .lsrAcc, un, h2 .jmp, h2 .eorAbs, h2 .lsrAbs, un]
/-- Row 5x of R75. -/
def row5 : List (Option Handler) :=
  [h1 .bvc, h1 .eorIndy, h1 .eorZpi, un, un, h1 .eorZpx, h1 .lsrZpx, un,
   h0 .cli, h2 .eorAbsy, h0 .phy, un, un, h2 .eorAbsx, h2 .lsrAbsx, un]
/-- Row 6x of R75. -/
def row6 : List (Option Handler) :=
  [un, h1 .adcIndx, un, un, h1 .stzZp, h1 .adcZp, h1 .rorZp, un,
   h0 .pla, h1 .adcImm, h0 .rorAcc, un, un, h2 .adcAbs, h2 .rorAbs, un]
/-- Row 7x of R75. -/
def row7 : List (Option Handler) :=
  [h1 .bvs, h1 .adcIndy, h1 .adcZpi, un, h1 .stzZpx, h1 .adcZpx, h1 .rorZpx, un,
   h0 .sei, h2 .adcAbsy, h0 .ply, un, un, h2 .adcAbsx, h2 .rorAbsx, un]
/-- Row 8x of R75. -/
def row8 : List (Option Handler) :=
  [h1 .bra, h1 .staIndx, un, un, h1 .styZp, h1 .staZp, h1 .stxZp, un,
   h0 .dey, un, un, un, h2 .styAbs, h2 .staAbs, h2 .stxAbs, un]
/-- Row 9x of R75. -/
def row9 : List (Option Handler) :=
  [h1 .bcc, h1 .staIndy, h1 .staZpi, un, h1 .styZpx, h1 .staZpx, h1 .stxZpy, un,
   un, h2 .staAbsy, h0 .txs, un, h2 .stzAbs, h2 .staAbsx, h2 .stzAbsx, un]
/-- Row Ax of R75. -/
def rowA : List (Option Handler) :=
  [h1 .ldyImm, h1 .ldaIndx, h1 .ldxImm, un, h1 .ldyZp, h1 .ldaZp, h1 .ldxZp, un,
   un, h1 .ldaImm, un, un, h2 .ldyAbs, h2 .ldaAbs, h2 .ldxAbs, un]
/-- Row Bx of R75. -/
def rowB : List (Option Handler) :=
  [h1 .bcs, h1 .ldaIndy, h1 .ldaZpi, un, h1 .ldyZpx, h1 .ldaZpx, h1 .ldxZpy, un,
   h0 .clv, h2 .ldaAbsy, h0 .tsx, un, h2 .ldyAbsx, h2 .ldaAbsx, h2 .ldxAbsy, un]
/-- Row Cx of R75. -/
def rowC : List (Option Handler) :=
  [h1 .cpyImm, h1 .cmpIndx, un, un, h1 .cpyZp, h1 .cmpZp, h1 .decZp, un,
   h0 .iny, h1 .cmpImm, h0 .dex, un, h2 .cpyAbs, h2 .cmpAbs, h2 .decAbs, un]
/-- Row Dx of R75. -/
def rowD : List (Option Handler) :=
  [h1 .bne, h1 .cmpIndy, h1 .cmpZpi, un, un, h1 .cmpZpx, h1 .decZpx, un,
   h0 .cld, h2 .cmpAbsy, h0 .phx, un, un, h2 .cmpAbsx, h2 .decAbsx, un]
/-- Row Ex of R75. -/
def rowE : List (Option Handler) :=
  [h1 .cpxImm, h1 .sbcIndx, un, un, h1 .cpxZp, h1 .sbcZp, h1 .incZp, un,
   h0 .inx, h1 .sbcImm, h0 .nop, un, h2 .cpxAbs, h2 .sbcAbs, h2 .incAbs, un]
/-- Row Fx of R75. -/
def rowF : List (Option Handler) :=
  [h1 .beq, h1 .sbcIndy, h1 .sbcZpi, un, un, h1 .sbcZpx, h1 .incZpx, un,
   h0 .sed, h2 .sbcAbsy, h0 .plx, un, un, h2 .sbcAbsx, h2 .incAbsx, un]

/-- The map of R75: row = high nibble, column = low nibble. -/
def opcodeMap : List (List (Option Handler)) :=
  [row0, row1, row2, row3, row4, row5, row6, row7] ++ [row8, row9, rowA, rowB, rowC, rowD, rowE, rowF]

/-- The dispatch table: the whole opcode byte selects the handler, with no sub-fields (R72, R74). -/
def handlerOf (op : Byte) : Option Handler :=
  (opcodeMap.getD (op.toNat / 16) []).getD (op.toNat % 16) none

/-! ## Decoding -/

/-- Why a list of bytes is no instruction. -/
inductive DecodeError where
  /-- The opcode byte has no handler (R80). -/
  | unassigned (op : Byte)
  /-- The list ends before the instruction does (R70: the opcode byte alone fixes the length). -/
  | truncated
deriving DecidableEq, Repr

/-- The operand bytes of a handler taken from the front of a list (R70, R73). -/
def readOperands : Handler → List Byte → Except DecodeError (Instr × List Byte)
  | .noOperand i, rest => .ok (i, rest)
  | .oneByte f, b :: rest => .ok (f b, rest)
  | .twoBytes f, lo :: hi :: rest => .ok (f (joinBytes hi lo), rest)
  | .oneByte _, [] => .error .truncated
  | .twoBytes _, _ => .error .truncated

/-- The instruction at the front of a list of bytes, and the bytes after it (R70). -/
def decode : List Byte → Except DecodeError (Instr × List Byte)
  | [] => .error .truncated
  | op :: rest =>
    match handlerOf op with
    | none => .error (.unassigned op)
    | some h => readOperands h rest

/-- The three bytes of a word numbered as spec/opcode_table.json numbers it (R71: bits [7:0] the opcode byte, bits [15:8]
and [23:16] the operand bytes); the bits from `nbits` up are 0. -/
def tableWordBytes (nbits w : Nat) : List Byte :=
  let v := w % 2 ^ nbits
  [BitVec.ofNat 8 v, BitVec.ofNat 8 (v / 256), BitVec.ofNat 8 (v / 65536)]

/-- The instruction the decoder reads from a table word. -/
def decodeTableWord (nbits w : Nat) : Option Instr :=
  match decode (tableWordBytes nbits w) with
  | .ok (i, _) => some i
  | .error _ => none

end Sys2Proof
end

