-- ==== Sys2Proof/Config.lean ====
section
/-! DEFINITION. The parameters of spec/00_scope.md R8 that are numbers, and the one parameter the spec leaves OPEN:
`MEM_INIT`, the contents of memory at creation. -/

namespace Sys2Proof.Config

/-- `MEM_INIT` (R8, R45; 92_eei_decisions.md D3, OPEN): the byte each address holds before anything has written it.
A FREE VALUE: it has no body, so nothing in Lean can evaluate it or prove a value of it, and every theorem holds for
every image (93_implementation_defined.md U6: "parameter, any value"). Log entry 1. -/
opaque memInit : Addr → Byte

/-- `MEM_SIZE` and `MAX_LOAD` (R8): 65,536 bytes. -/
def memSize : Nat := 65536

/-- `STACK_BASE` (R8): the stack page is 0x0100 to 0x01FF. -/
def stackBase : Addr := 0x0100#16

/-- `LOAD_BASE` (R8, R243): a program is copied to address 0. -/
def loadBase : Nat := 0

/-- `HALT_OPCODE` (R8, R93): the byte 0x00. -/
def haltOpcode : Byte := 0x00#8

/-- The top of memory: the sequential advance of PC is never made from here (R29, R91). -/
def topAddr : Addr := 0xFFFF#16

end Sys2Proof.Config
end

