-- ==== Sys2Proof/Machine/State.lean ====
section
/-! DEFINITION. The state of the machine (spec/10_state.md R20): A, X, Y, SP, P, PC, Mem and IC, and beside them one field of
the model's own, `outcome`, which records how the last completed instruction ended (60_exceptions.md R222). Plain data. -/

namespace Sys2Proof.Machine

/-- The 8-bit registers that `x[r]` names (00_scope.md R11). -/
inductive Reg where
  | a | x | y | sp
deriving DecidableEq, Repr

/-- The eight bits of P (R30). -/
inductive Flag where
  | c | z | i | d | b | u | v | n
deriving DecidableEq, Repr

/-- The written part of memory: address and byte, in canonical form (`Memory.wf`). An address that is not listed holds no
byte of its own and reads as `Config.memInit` (`Memory.read`; R41, R45; log entry 1). -/
abbrev Memory := List Host.Cell

/-- How the last completed instruction ended (R13, R93): `Running` or `Halt`. It is a RECORD beside the machine's state, as
R222 asks, and no latch: no instruction and no step reads it, and a step taken after `halt` continues at PC (R94).
Log entry 2. -/
inductive Ending where
  | running
  | halt
deriving DecidableEq, Repr

/-- The state of one machine (R20). -/
structure State where
  /-- the Accumulator (R22) -/
  a : Byte
  /-- IndexX (R23) -/
  x : Byte
  /-- IndexY (R24) -/
  y : Byte
  /-- the StackPointer: the offset of the next free slot of the stack page (R26) -/
  sp : Byte
  /-- StatusFlags, packed: bits 0 to 7 are C, Z, I, D, B, U, V, N (R30) -/
  p : Byte
  /-- the ProgramCounter (R27) -/
  pc : Addr
  /-- Mem, the 65,536 bytes (R41) -/
  mem : Memory
  /-- IC, the instruction counter, unbounded (R42) -/
  ic : Nat
  /-- the model's own record of the last completed instruction's ending; DESIGN CHOICE, log entry 2 -/
  outcome : Ending
deriving DecidableEq, Repr

/-- The error outcomes (60_exceptions.md R211: a closed enumeration). -/
inductive Fault where
  /-- R212: the byte `op` fetched as an opcode at `addr` has no handler. Raised by `fetchInstr`, so by `step`. Safe: the spec
  itself stops here. -/
  | unassignedOpcode (op : Byte) (addr : Addr)
  /-- R213: an instruction-stream fetch of the byte at 0xFFFF. Raised by `fetchByte`, so by `step`. Safe: the spec itself
  stops here. -/
  | addressSpaceExhausted
  /-- R214: the host asked to load more than 65,536 bytes. Raised by the host operation `loadProgram` only, never by a step.
  Safe: the spec itself rejects the load. -/
  | oversizedProgramLoad (length : Nat)
deriving DecidableEq, Repr

/-- Why the model gives an instruction no meaning. -/
inductive Refusal where
  /-- Raised by an arm of `exec` for an instruction without a meaning; no arm of this model does so. Safe: nothing can be
  proved of a refused step. -/
  | notModelled (mnemonic : String)
deriving DecidableEq, Repr

/-- The state after `reset()` on a newly created machine (R44, R242): every register, P, PC and IC zero, nothing written in
memory. R44 gives every value but `outcome`'s (DESIGN CHOICE, log entry 2). -/
def State.reset : State :=
  { a := 0#8, x := 0#8, y := 0#8, sp := 0#8, p := 0#8, pc := 0#16, mem := [], ic := 0, outcome := .running }

end Sys2Proof.Machine
end

