-- ==== Sys2Proof/Machine/Flags.lean ====
section
/-! DEFINITION. The flag unit (spec/40_engine.md R106 to R109) and the ALU (R110 to R117), as functions of bytes and bits.
Sums and differences are taken exactly, in Nat or Int, and narrowed at the end, as the rules write them. -/

namespace Sys2Proof.Machine

/-- The bit of P a flag stands at (R30). -/
def Flag.bit : Flag → Nat
  | .c => 0
  | .z => 1
  | .i => 2
  | .d => 3
  | .b => 4
  | .u => 5
  | .v => 6
  | .n => 7

/-- `P.f` (R11). -/
def getFlag (p : Byte) (f : Flag) : Bool := p.getLsbD f.bit

/-- `P.f <- b`: that one bit, no other (R11, R106 SetFlag). -/
def putFlag (p : Byte) (f : Flag) (b : Bool) : Byte :=
  if b then p ||| BitVec.twoPow 8 f.bit else p &&& ~~~ BitVec.twoPow 8 f.bit

/-- SetNZ (R106, R107): Z from the masked byte being 0, N from its bit 7. -/
def putNZ (p r : Byte) : Byte := putFlag (putFlag p .z (r == 0#8)) .n r.msb

/-- The byte PHP pushes (R120): P with bits 4 and 5 forced to 1. -/
def pushedStatus (p : Byte) : Byte := p ||| 0x30#8

/-- ADD8 (R110): the result byte, the carry out and the signed overflow. -/
def add8 (a m : Byte) (cin : Bool) : Byte × Bool × Bool :=
  let s : Nat := a.toNat + m.toNat + cin.toNat
  let r : Byte := BitVec.ofNat 8 s
  (r, decide (s > 255), a.msb == m.msb && r.msb != a.msb)

/-- SUB8 (R111): `a - m - (1 - cin)`; the carry out says that no borrow occurred (90_conflicts.md C8). -/
def sub8 (a m : Byte) (cin : Bool) : Byte × Bool × Bool :=
  let d : Int := (a.toNat : Int) - (m.toNat : Int) - (1 - (cin.toNat : Int))
  let r : Byte := BitVec.ofInt 8 d
  (r, decide (d ≥ 0), a.msb != m.msb && r.msb != a.msb)

/-- CMP8 (R112): the difference and the unsigned comparison. -/
def cmp8 (reg m : Byte) : Byte × Bool := (reg - m, decide (reg.toNat ≥ m.toNat))

/-- INC8 (R113). -/
def inc8 (v : Byte) : Byte := v + 1#8

/-- DEC8 (R113). -/
def dec8 (v : Byte) : Byte := v - 1#8

/-- AND8 (R114). -/
def and8 (a m : Byte) : Byte := a &&& m

/-- OR8 (R114). -/
def or8 (a m : Byte) : Byte := a ||| m

/-- EOR8 (R114). -/
def eor8 (a m : Byte) : Byte := a ^^^ m

/-- ASL8 (R115): the result and the bit shifted out. -/
def asl8 (v : Byte) : Byte × Bool := (v <<< 1, v.msb)

/-- LSR8 (R115). -/
def lsr8 (v : Byte) : Byte × Bool := (v >>> 1, v.getLsbD 0)

/-- ROL8 (R116): the prior carry goes into bit 0. -/
def rol8 (v : Byte) (cin : Bool) : Byte × Bool :=
  ((v <<< 1) ||| (if cin then 0x01#8 else 0x00#8), v.msb)

/-- ROR8 (R116): the prior carry goes into bit 7. -/
def ror8 (v : Byte) (cin : Bool) : Byte × Bool :=
  ((v >>> 1) ||| (if cin then 0x80#8 else 0x00#8), v.getLsbD 0)

/-- TSB8 (R117). -/
def tsb8 (m a : Byte) : Byte := m ||| a

/-- TRB8 (R117). -/
def trb8 (m a : Byte) : Byte := m &&& (a ^^^ 0xFF#8)

end Sys2Proof.Machine
end

