-- ==== Sys2Proof/Machine/Ops.lean ====
section
/-! DEFINITION. The named operations over registers, P and memory (spec/00_scope.md R11, R12; 40_engine.md R106, R118 to R120),
and how the machine stops and returns: a stop saves nothing and enters nothing (60_exceptions.md R220), so what it leaves is
`stopState`, and the only return, RTI, is the pulls of `pullStatusAndPC` (R221). -/

namespace Sys2Proof.Machine

/-- What a meaning answers. -/
abbrev Result := Host.Outcome State Fault Refusal

/-! ## Memory (20_memory.md R50, R53, R55) -/

/-- The canonical form of written memory: addresses strictly rising, each inside the address space. An unlisted address holds
no byte of its own, so no entry equals what an unlisted address holds; two memories in this form that read alike under every
image MEM_INIT are the same list (`Sys2Proof.Laws.memory_ext`). Log entry 1. -/
abbrev Memory.wf (m : Memory) : Prop :=
  m.Pairwise (fun c d => c.1 < d.1) ∧ ∀ c ∈ m, c.1 < Config.memSize

/-- The byte written at an address, if any. -/
def Memory.find : Memory → Nat → Option Byte
  | [], _ => none
  | (k, v) :: rest, a => if k = a then some v else Memory.find rest a

/-- A read under a given image MEM_INIT. -/
def Memory.readOver (init : Addr → Byte) (m : Memory) (a : Addr) : Byte :=
  (Memory.find m a.toNat).getD (init a)

/-- `MemRead(a, 1)` (R12, R53): the byte last written, or MEM_INIT's where nothing has been written. -/
def Memory.read (m : Memory) (a : Addr) : Byte := Memory.readOver Config.memInit m a

/-- The list with a byte written at a key, the order kept. -/
def Memory.put : Memory → Nat → Byte → Memory
  | [], a, v => [(a, v)]
  | (k, w) :: rest, a, v =>
    if a < k then (a, v) :: (k, w) :: rest
    else if a = k then (a, v) :: rest
    else (k, w) :: Memory.put rest a v

/-- `MemWrite(a, 1, v)` (R12, R53): that byte, nothing else. -/
def Memory.write (m : Memory) (a : Addr) (v : Byte) : Memory := Memory.put m a.toNat v

/-- The bytes of a list written at ascending addresses from `a` (mod 65536). -/
def Memory.writeAll (m : Memory) (a : Addr) : List Byte → Memory
  | [] => m
  | b :: rest => (Memory.writeAll m (a + 1#16) rest).write a b

/-! ## Registers, P, PC, IC -/

/-- `x[r]` (R11). -/
def State.reg (s : State) : Reg → Byte
  | .a => s.a
  | .x => s.x
  | .y => s.y
  | .sp => s.sp

/-- `x[r] <- v` (R11, R25). -/
def State.setReg (s : State) (r : Reg) (v : Byte) : State :=
  match r with
  | .a => { s with a := v }
  | .x => { s with x := v }
  | .y => { s with y := v }
  | .sp => { s with sp := v }

def State.setP (s : State) (p : Byte) : State := { s with p := p }

def State.setPC (s : State) (pc : Addr) : State := { s with pc := pc }

def State.setMem (s : State) (m : Memory) : State := { s with mem := m }

def State.setIC (s : State) (n : Nat) : State := { s with ic := n }

def State.setOutcome (s : State) (e : Ending) : State := { s with outcome := e }

/-- `P.f`. -/
def State.flag (s : State) (f : Flag) : Bool := getFlag s.p f

/-- SetFlag (R106). -/
def State.setFlag (s : State) (f : Flag) (b : Bool) : State := s.setP (putFlag s.p f b)

/-- SetNZ (R106). -/
def State.setNZ (s : State) (r : Byte) : State := s.setP (putNZ s.p r)

/-- `MemRead(a, 1)`. -/
def State.byteAt (s : State) (a : Addr) : Byte := s.mem.read a

/-- `MemWrite(a, 1, v)`. -/
def State.writeByte (s : State) (a : Addr) (v : Byte) : State := s.setMem (s.mem.write a v)

/-! ## The stack manager (R118, R119) -/

/-- The stack address an offset denotes: `0x0100 + SP` (R26). -/
def stackAddr (sp : Byte) : Addr := Config.stackBase + sp.setWidth 16

/-- Push (R118): store at the free slot, then decrement SP with wraparound. -/
def push (b : Byte) (s : State) : State := (s.writeByte (stackAddr s.sp) b).setReg .sp (s.sp - 1#8)

/-- Pull (R119): increment SP with wraparound, then load. The slot is not erased. -/
def pull (s : State) : Byte × State :=
  (s.byteAt (stackAddr (s.sp + 1#8)), s.setReg .sp (s.sp + 1#8))

/-- RTI's pulls (R205, R221): P raw, then PC low, then PC high. -/
def pullStatusAndPC (s : State) : State :=
  let (p, s1) := pull s
  let (lo, s2) := pull (s1.setP p)
  let (hi, s3) := pull s2
  s3.setPC (joinBytes hi lo)

/-! ## Stops (60_exceptions.md R212 to R214, R219, R220) -/

/-- The state a stop leaves: PC one past the unassigned byte, or 0xFFFF, and nothing else changed; a rejected load changes
nothing. -/
def stopState (f : Fault) (s : State) : State :=
  match f with
  | .unassignedOpcode _ addr => s.setPC (addr + 1#16)
  | .addressSpaceExhausted => s.setPC Config.topAddr
  | .oversizedProgramLoad _ => s

end Sys2Proof.Machine
end

