-- ==== Sys2Proof/Machine/Operands.lean ====
section
/-! DEFINITION. The addressing-mode resolver (spec/40_engine.md R95 to R105): one pure function per mode, from the operand bytes
and the registers X and Y to an effective address. The operand bytes have been fetched already (Machine/Fetch.lean). -/

namespace Sys2Proof.Machine

/-- A byte as an address of the zero page: `zext_16` (R10, R73). -/
def zeroPage (b : Byte) : Addr := b.setWidth 16

/-- ReadWordZP (R95): the high byte of a pointer comes from `(p + 1) mod 256`. -/
def readWordZP (p : Byte) (s : State) : Addr :=
  joinBytes (s.byteAt (zeroPage (p + 1#8))) (s.byteAt (zeroPage p))

/-- Zero Page (R97). -/
def eaZp (z : Byte) (_ : State) : Addr := zeroPage z

/-- Zero Page,X (R98): the sum is masked to 8 bits. -/
def eaZpx (z : Byte) (s : State) : Addr := zeroPage (z + s.x)

/-- Zero Page,Y (R99). -/
def eaZpy (z : Byte) (s : State) : Addr := zeroPage (z + s.y)

/-- Absolute (R100). -/
def eaAbs (w : Addr) (_ : State) : Addr := w

/-- Absolute,X (R101): the word first, then the index, masked to 16 bits. -/
def eaAbsx (w : Addr) (s : State) : Addr := w + s.x.setWidth 16

/-- Absolute,Y (R102). -/
def eaAbsy (w : Addr) (s : State) : Addr := w + s.y.setWidth 16

/-- (Indirect,X) (R103). -/
def eaIndx (z : Byte) (s : State) : Addr := readWordZP (z + s.x) s

/-- (Indirect),Y (R104): the sum is masked to 16 bits. -/
def eaIndy (z : Byte) (s : State) : Addr := readWordZP z s + s.y.setWidth 16

/-- (Indirect) (R105). -/
def eaZpi (z : Byte) (s : State) : Addr := readWordZP z s

/-- `Resolve(mode)` (R95). -/
def resolve (m : AddrMode) (s : State) : Addr :=
  match m with
  | .zp z => eaZp z s
  | .zpx z => eaZpx z s
  | .zpy z => eaZpy z s
  | .abs w => eaAbs w s
  | .absx w => eaAbsx w s
  | .absy w => eaAbsy w s
  | .indx z => eaIndx z s
  | .indy z => eaIndy z s
  | .zpi z => eaZpi z s

/-- `Operand(mode)` for the nine modes that resolve to an address (R95): the byte there. Immediate delivers its byte as it
stands (R96). -/
def operandAt (m : AddrMode) (s : State) : Byte := s.byteAt (resolve m s)

/-- The target of a branch, PC being the address after the displacement byte (R163): the sum wraps modulo 65536. -/
def branchTarget (d : Byte) (s : State) : Addr := s.pc + d.signExtend 16

end Sys2Proof.Machine
end

