-- ==== Sys2Proof/Machine/LoadStore.lean ====
section
/-! DEFINITION. Load and store instructions (spec/41_load_store.md R130 to R136). A meaning runs after the whole instruction
has been fetched: PC already holds the next sequential address (10_state.md R28). -/

namespace Sys2Proof.Machine

/-! ## Shared operations -/

/-- `x[r] <- m; SetNZ(m)` (R130 to R132). -/
def loadReg (r : Reg) (m : Byte) (s : State) : Result := .next ((s.setReg r m).setNZ m)

/-- `ea <- Resolve(mode); MemWrite(ea, 1, v)`: the destination is not read and no flag is written (R133 to R136). -/
def storeByte (mode : AddrMode) (v : Byte) (s : State) : Result := .next (s.writeByte (resolve mode s) v)

/-! ## Load -/

/-- R130: load accumulator. -/
def execLdaImm (v : Byte) (s : State) : Result := loadReg .a v s
def execLdaZp (z : Byte) (s : State) : Result := loadReg .a (operandAt (.zp z) s) s
def execLdaZpx (z : Byte) (s : State) : Result := loadReg .a (operandAt (.zpx z) s) s
def execLdaAbs (w : Addr) (s : State) : Result := loadReg .a (operandAt (.abs w) s) s
def execLdaAbsx (w : Addr) (s : State) : Result := loadReg .a (operandAt (.absx w) s) s
def execLdaAbsy (w : Addr) (s : State) : Result := loadReg .a (operandAt (.absy w) s) s
def execLdaIndx (z : Byte) (s : State) : Result := loadReg .a (operandAt (.indx z) s) s
def execLdaIndy (z : Byte) (s : State) : Result := loadReg .a (operandAt (.indy z) s) s
def execLdaZpi (z : Byte) (s : State) : Result := loadReg .a (operandAt (.zpi z) s) s

/-- R131: load index X; the indexed forms use Y. -/
def execLdxImm (v : Byte) (s : State) : Result := loadReg .x v s
def execLdxZp (z : Byte) (s : State) : Result := loadReg .x (operandAt (.zp z) s) s
def execLdxZpy (z : Byte) (s : State) : Result := loadReg .x (operandAt (.zpy z) s) s
def execLdxAbs (w : Addr) (s : State) : Result := loadReg .x (operandAt (.abs w) s) s
def execLdxAbsy (w : Addr) (s : State) : Result := loadReg .x (operandAt (.absy w) s) s

/-- R132: load index Y; the indexed forms use X. -/
def execLdyImm (v : Byte) (s : State) : Result := loadReg .y v s
def execLdyZp (z : Byte) (s : State) : Result := loadReg .y (operandAt (.zp z) s) s
def execLdyZpx (z : Byte) (s : State) : Result := loadReg .y (operandAt (.zpx z) s) s
def execLdyAbs (w : Addr) (s : State) : Result := loadReg .y (operandAt (.abs w) s) s
def execLdyAbsx (w : Addr) (s : State) : Result := loadReg .y (operandAt (.absx w) s) s

/-! ## Store -/

/-- R133: store accumulator. -/
def execStaZp (z : Byte) (s : State) : Result := storeByte (.zp z) s.a s
def execStaZpx (z : Byte) (s : State) : Result := storeByte (.zpx z) s.a s
def execStaAbs (w : Addr) (s : State) : Result := storeByte (.abs w) s.a s
def execStaAbsx (w : Addr) (s : State) : Result := storeByte (.absx w) s.a s
def execStaAbsy (w : Addr) (s : State) : Result := storeByte (.absy w) s.a s
def execStaIndx (z : Byte) (s : State) : Result := storeByte (.indx z) s.a s
def execStaIndy (z : Byte) (s : State) : Result := storeByte (.indy z) s.a s
def execStaZpi (z : Byte) (s : State) : Result := storeByte (.zpi z) s.a s

/-- R134: store index X. -/
def execStxZp (z : Byte) (s : State) : Result := storeByte (.zp z) s.x s
def execStxZpy (z : Byte) (s : State) : Result := storeByte (.zpy z) s.x s
def execStxAbs (w : Addr) (s : State) : Result := storeByte (.abs w) s.x s

/-- R135: store index Y. -/
def execStyZp (z : Byte) (s : State) : Result := storeByte (.zp z) s.y s
def execStyZpx (z : Byte) (s : State) : Result := storeByte (.zpx z) s.y s
def execStyAbs (w : Addr) (s : State) : Result := storeByte (.abs w) s.y s

/-- R136: store zero; Z is not set by the zero stored. -/
def execStzZp (z : Byte) (s : State) : Result := storeByte (.zp z) 0#8 s
def execStzZpx (z : Byte) (s : State) : Result := storeByte (.zpx z) 0#8 s
def execStzAbs (w : Addr) (s : State) : Result := storeByte (.abs w) 0#8 s
def execStzAbsx (w : Addr) (s : State) : Result := storeByte (.absx w) 0#8 s

end Sys2Proof.Machine
end

