-- ==== Sys2Proof/Machine/Arith.lean ====
section
/-! DEFINITION. Arithmetic, increment and decrement (spec/42_arith_incdec.md R140 to R147). -/

namespace Sys2Proof.Machine

/-! ## Shared operations -/

/-- `x[A] <- r; SetFlag(C, cout); SetFlag(V, v); SetNZ(r)` (R140, R141). P.D is not read (R33). -/
def writeSum (alu : Byte × Bool × Bool) (s : State) : Result :=
  let (r, cout, v) := alu
  .next ((((s.setReg .a r).setFlag .c cout).setFlag .v v).setNZ r)

def addToA (m : Byte) (s : State) : Result := writeSum (add8 s.a m (s.flag .c)) s

def subFromA (m : Byte) (s : State) : Result := writeSum (sub8 s.a m (s.flag .c)) s

/-- One read and one write of `ea`, then SetNZ (R142, R143; 20_memory.md R57). -/
def modifyByte (f : Byte → Byte) (mode : AddrMode) (s : State) : Result :=
  let ea := resolve mode s
  let r := f (s.byteAt ea)
  .next ((s.writeByte ea r).setNZ r)

/-- `r <- f(x[reg]); x[reg] <- r; SetNZ(r)` (R144 to R147). -/
def modifyReg (f : Byte → Byte) (reg : Reg) (s : State) : Result :=
  let r := f (s.reg reg)
  .next ((s.setReg reg r).setNZ r)

/-! ## Arithmetic -/

/-- R140: add with carry. -/
def execAdcImm (v : Byte) (s : State) : Result := addToA v s
def execAdcZp (z : Byte) (s : State) : Result := addToA (operandAt (.zp z) s) s
def execAdcZpx (z : Byte) (s : State) : Result := addToA (operandAt (.zpx z) s) s
def execAdcAbs (w : Addr) (s : State) : Result := addToA (operandAt (.abs w) s) s
def execAdcAbsx (w : Addr) (s : State) : Result := addToA (operandAt (.absx w) s) s
def execAdcAbsy (w : Addr) (s : State) : Result := addToA (operandAt (.absy w) s) s
def execAdcIndx (z : Byte) (s : State) : Result := addToA (operandAt (.indx z) s) s
def execAdcIndy (z : Byte) (s : State) : Result := addToA (operandAt (.indy z) s) s
def execAdcZpi (z : Byte) (s : State) : Result := addToA (operandAt (.zpi z) s) s

/-- R141: subtract with carry. -/
def execSbcImm (v : Byte) (s : State) : Result := subFromA v s
def execSbcZp (z : Byte) (s : State) : Result := subFromA (operandAt (.zp z) s) s
def execSbcZpx (z : Byte) (s : State) : Result := subFromA (operandAt (.zpx z) s) s
def execSbcAbs (w : Addr) (s : State) : Result := subFromA (operandAt (.abs w) s) s
def execSbcAbsx (w : Addr) (s : State) : Result := subFromA (operandAt (.absx w) s) s
def execSbcAbsy (w : Addr) (s : State) : Result := subFromA (operandAt (.absy w) s) s
def execSbcIndx (z : Byte) (s : State) : Result := subFromA (operandAt (.indx z) s) s
def execSbcIndy (z : Byte) (s : State) : Result := subFromA (operandAt (.indy z) s) s
def execSbcZpi (z : Byte) (s : State) : Result := subFromA (operandAt (.zpi z) s) s

/-! ## Increment and decrement -/

/-- R142: increment memory. -/
def execIncZp (z : Byte) (s : State) : Result := modifyByte inc8 (.zp z) s
def execIncZpx (z : Byte) (s : State) : Result := modifyByte inc8 (.zpx z) s
def execIncAbs (w : Addr) (s : State) : Result := modifyByte inc8 (.abs w) s
def execIncAbsx (w : Addr) (s : State) : Result := modifyByte inc8 (.absx w) s

/-- R143: decrement memory. -/
def execDecZp (z : Byte) (s : State) : Result := modifyByte dec8 (.zp z) s
def execDecZpx (z : Byte) (s : State) : Result := modifyByte dec8 (.zpx z) s
def execDecAbs (w : Addr) (s : State) : Result := modifyByte dec8 (.abs w) s
def execDecAbsx (w : Addr) (s : State) : Result := modifyByte dec8 (.absx w) s

/-- R144. -/
def execInx (s : State) : Result := modifyReg inc8 .x s
/-- R145. -/
def execIny (s : State) : Result := modifyReg inc8 .y s
/-- R146. -/
def execDex (s : State) : Result := modifyReg dec8 .x s
/-- R147. -/
def execDey (s : State) : Result := modifyReg dec8 .y s

end Sys2Proof.Machine
end

