-- ==== Sys2Proof/Machine/BitsControl.lean ====
section
/-! DEFINITION. Bit test-and-modify and control instructions (spec/46_bits_control.md R200 to R205). -/

namespace Sys2Proof.Machine

/-! ## Test-and-set, test-and-reset bits: N and Z come from the byte stored (R200, R201; 92_eei_decisions.md D16) -/

/-- R200: test and set bits. -/
def execTsbZp (z : Byte) (s : State) : Result := modifyByte (fun m => tsb8 m s.a) (.zp z) s
def execTsbAbs (w : Addr) (s : State) : Result := modifyByte (fun m => tsb8 m s.a) (.abs w) s

/-- R201: test and reset bits. -/
def execTrbZp (z : Byte) (s : State) : Result := modifyByte (fun m => trb8 m s.a) (.zp z) s
def execTrbAbs (w : Addr) (s : State) : Result := modifyByte (fun m => trb8 m s.a) (.abs w) s

/-! ## Control -/

/-- R202: `ea <- Resolve(ABS); pc <- ea`. -/
def execJmp (w : Addr) (s : State) : Result := .next (s.setPC (resolve (.abs w) s))
/-- R203: halt. PC is already one past the byte and the step counts the instruction in IC (R90); nothing else changes.
The halt is a next state whose record says so, not a latch (R94). Log entry 2. -/
def execBrk (s : State) : Result := .next (s.setOutcome .halt)
/-- R204: nothing. -/
def execNop (s : State) : Result := .next s
/-- R205: pull P, PC low, PC high. -/
def execRti (s : State) : Result := .next (pullStatusAndPC s)

end Sys2Proof.Machine
end

