-- ==== Sys2Proof/Machine/CompareBranch.lean ====
section
/-! DEFINITION. Compare and branch instructions (spec/44_compare_branch.md R160 to R172). -/

namespace Sys2Proof.Machine

/-! ## Shared operations -/

/-- `(r, cout) <- CMP8(x[reg], m); SetFlag(C, cout); SetNZ(r)`: no register is written and V is untouched (R160 to R162). -/
def compareReg (reg : Reg) (m : Byte) (s : State) : Result :=
  let (r, cout) := cmp8 (s.reg reg) m
  .next ((s.setFlag .c cout).setNZ r)

/-- R163: the displacement byte has been consumed; a taken branch adds it to PC. -/
def branchIf (cond : Bool) (d : Byte) (s : State) : Result :=
  .next (if cond then s.setPC (branchTarget d s) else s)

/-! ## Compare -/

/-- R160: compare accumulator. -/
def execCmpImm (v : Byte) (s : State) : Result := compareReg .a v s
def execCmpZp (z : Byte) (s : State) : Result := compareReg .a (operandAt (.zp z) s) s
def execCmpZpx (z : Byte) (s : State) : Result := compareReg .a (operandAt (.zpx z) s) s
def execCmpAbs (w : Addr) (s : State) : Result := compareReg .a (operandAt (.abs w) s) s
def execCmpAbsx (w : Addr) (s : State) : Result := compareReg .a (operandAt (.absx w) s) s
def execCmpAbsy (w : Addr) (s : State) : Result := compareReg .a (operandAt (.absy w) s) s
def execCmpIndx (z : Byte) (s : State) : Result := compareReg .a (operandAt (.indx z) s) s
def execCmpIndy (z : Byte) (s : State) : Result := compareReg .a (operandAt (.indy z) s) s
def execCmpZpi (z : Byte) (s : State) : Result := compareReg .a (operandAt (.zpi z) s) s

/-- R161: compare X. -/
def execCpxImm (v : Byte) (s : State) : Result := compareReg .x v s
def execCpxZp (z : Byte) (s : State) : Result := compareReg .x (operandAt (.zp z) s) s
def execCpxAbs (w : Addr) (s : State) : Result := compareReg .x (operandAt (.abs w) s) s

/-- R162: compare Y. -/
def execCpyImm (v : Byte) (s : State) : Result := compareReg .y v s
def execCpyZp (z : Byte) (s : State) : Result := compareReg .y (operandAt (.zp z) s) s
def execCpyAbs (w : Addr) (s : State) : Result := compareReg .y (operandAt (.abs w) s) s

/-! ## Branch -/

/-- R164: C = 0. -/
def execBcc (d : Byte) (s : State) : Result := branchIf (!s.flag .c) d s
/-- R165: C = 1. -/
def execBcs (d : Byte) (s : State) : Result := branchIf (s.flag .c) d s
/-- R166: Z = 1. -/
def execBeq (d : Byte) (s : State) : Result := branchIf (s.flag .z) d s
/-- R167: Z = 0. -/
def execBne (d : Byte) (s : State) : Result := branchIf (!s.flag .z) d s
/-- R168: N = 1. -/
def execBmi (d : Byte) (s : State) : Result := branchIf (s.flag .n) d s
/-- R169: N = 0. -/
def execBpl (d : Byte) (s : State) : Result := branchIf (!s.flag .n) d s
/-- R170: V = 0. -/
def execBvc (d : Byte) (s : State) : Result := branchIf (!s.flag .v) d s
/-- R171: V = 1. -/
def execBvs (d : Byte) (s : State) : Result := branchIf (s.flag .v) d s
/-- R172: always taken. -/
def execBra (d : Byte) (s : State) : Result := branchIf true d s

end Sys2Proof.Machine
end

