-- ==== Sys2Proof/Machine/FlagsStack.lean ====
section
/-! DEFINITION. Status-flag and stack instructions (spec/45_flags_stack.md R180 to R196). -/

namespace Sys2Proof.Machine

/-! ## Shared operations -/

/-- Set or clear exactly one bit of P (R180 to R186). -/
def writeFlag (f : Flag) (b : Bool) (s : State) : Result := .next (s.setFlag f b)

/-- `Push(b)` and no flag (R187 to R190). -/
def pushByte (b : Byte) (s : State) : Result := .next (push b s)

/-- `v <- Pull(); x[r] <- v; SetNZ(v)` (R191, R193, R194). -/
def pullReg (r : Reg) (s : State) : Result :=
  let (v, s1) := pull s
  .next ((s1.setReg r v).setNZ v)

/-! ## Status-flag set and clear -/

/-- R180. -/
def execClc (s : State) : Result := writeFlag .c false s
/-- R181. -/
def execSec (s : State) : Result := writeFlag .c true s
/-- R182. -/
def execCld (s : State) : Result := writeFlag .d false s
/-- R183: ADC and SBC stay binary (R33). -/
def execSed (s : State) : Result := writeFlag .d true s
/-- R184. -/
def execCli (s : State) : Result := writeFlag .i false s
/-- R185: nothing is masked (R216). -/
def execSei (s : State) : Result := writeFlag .i true s
/-- R186. -/
def execClv (s : State) : Result := writeFlag .v false s

/-! ## Stack -/

/-- R187: push accumulator. -/
def execPha (s : State) : Result := pushByte s.a s
/-- R188: push P with bits 4 and 5 forced; P itself is unchanged. -/
def execPhp (s : State) : Result := pushByte (pushedStatus s.p) s
/-- R189: push X. -/
def execPhx (s : State) : Result := pushByte s.x s
/-- R190: push Y. -/
def execPhy (s : State) : Result := pushByte s.y s
/-- R191: pull accumulator. -/
def execPla (s : State) : Result := pullReg .a s
/-- R192: pull P, all eight bits raw. -/
def execPlp (s : State) : Result :=
  let (v, s1) := pull s
  .next (s1.setP v)
/-- R193: pull X. -/
def execPlx (s : State) : Result := pullReg .x s
/-- R194: pull Y. -/
def execPly (s : State) : Result := pullReg .y s
/-- R195: SP to X, with N and Z (92_eei_decisions.md D7). -/
def execTsx (s : State) : Result := .next ((s.setReg .x s.sp).setNZ s.sp)
/-- R196: X to SP, no flag (92_eei_decisions.md D7). -/
def execTxs (s : State) : Result := .next (s.setReg .sp s.x)

end Sys2Proof.Machine
end

