-- ==== Sys2Proof/Machine/LogicShift.lean ====
section
/-! DEFINITION. Logical, shift and rotate instructions (spec/43_logic_shift.md R150 to R156). -/

namespace Sys2Proof.Machine

/-! ## Shared operations -/

/-- `r <- f(x[A], m); x[A] <- r; SetNZ(r)` (R150 to R152). -/
def combineA (f : Byte → Byte → Byte) (m : Byte) (s : State) : Result :=
  let r := f s.a m
  .next ((s.setReg .a r).setNZ r)

/-- The accumulator form of R153 to R156. -/
def shiftA (f : Byte → Byte × Bool) (s : State) : Result :=
  let (r, cout) := f s.a
  .next (((s.setReg .a r).setFlag .c cout).setNZ r)

/-- The memory form of R153 to R156: one read and one write of `ea`, A unchanged. -/
def shiftByte (f : Byte → Byte × Bool) (mode : AddrMode) (s : State) : Result :=
  let ea := resolve mode s
  let (r, cout) := f (s.byteAt ea)
  .next (((s.writeByte ea r).setFlag .c cout).setNZ r)

/-- ROL8 and ROR8 with the carry the instruction finds (R155, R156). -/
def rolWith (s : State) (v : Byte) : Byte × Bool := rol8 v (s.flag .c)

def rorWith (s : State) (v : Byte) : Byte × Bool := ror8 v (s.flag .c)

/-! ## Logical -/

/-- R150: AND with accumulator. -/
def execAndImm (v : Byte) (s : State) : Result := combineA and8 v s
def execAndZp (z : Byte) (s : State) : Result := combineA and8 (operandAt (.zp z) s) s
def execAndZpx (z : Byte) (s : State) : Result := combineA and8 (operandAt (.zpx z) s) s
def execAndAbs (w : Addr) (s : State) : Result := combineA and8 (operandAt (.abs w) s) s
def execAndAbsx (w : Addr) (s : State) : Result := combineA and8 (operandAt (.absx w) s) s
def execAndAbsy (w : Addr) (s : State) : Result := combineA and8 (operandAt (.absy w) s) s
def execAndIndx (z : Byte) (s : State) : Result := combineA and8 (operandAt (.indx z) s) s
def execAndIndy (z : Byte) (s : State) : Result := combineA and8 (operandAt (.indy z) s) s
def execAndZpi (z : Byte) (s : State) : Result := combineA and8 (operandAt (.zpi z) s) s

/-- R151: OR with accumulator. -/
def execOraImm (v : Byte) (s : State) : Result := combineA or8 v s
def execOraZp (z : Byte) (s : State) : Result := combineA or8 (operandAt (.zp z) s) s
def execOraZpx (z : Byte) (s : State) : Result := combineA or8 (operandAt (.zpx z) s) s
def execOraAbs (w : Addr) (s : State) : Result := combineA or8 (operandAt (.abs w) s) s
def execOraAbsx (w : Addr) (s : State) : Result := combineA or8 (operandAt (.absx w) s) s
def execOraAbsy (w : Addr) (s : State) : Result := combineA or8 (operandAt (.absy w) s) s
def execOraIndx (z : Byte) (s : State) : Result := combineA or8 (operandAt (.indx z) s) s
def execOraIndy (z : Byte) (s : State) : Result := combineA or8 (operandAt (.indy z) s) s
def execOraZpi (z : Byte) (s : State) : Result := combineA or8 (operandAt (.zpi z) s) s

/-- R152: exclusive OR with accumulator. -/
def execEorImm (v : Byte) (s : State) : Result := combineA eor8 v s
def execEorZp (z : Byte) (s : State) : Result := combineA eor8 (operandAt (.zp z) s) s
def execEorZpx (z : Byte) (s : State) : Result := combineA eor8 (operandAt (.zpx z) s) s
def execEorAbs (w : Addr) (s : State) : Result := combineA eor8 (operandAt (.abs w) s) s
def execEorAbsx (w : Addr) (s : State) : Result := combineA eor8 (operandAt (.absx w) s) s
def execEorAbsy (w : Addr) (s : State) : Result := combineA eor8 (operandAt (.absy w) s) s
def execEorIndx (z : Byte) (s : State) : Result := combineA eor8 (operandAt (.indx z) s) s
def execEorIndy (z : Byte) (s : State) : Result := combineA eor8 (operandAt (.indy z) s) s
def execEorZpi (z : Byte) (s : State) : Result := combineA eor8 (operandAt (.zpi z) s) s

/-! ## Shift and rotate -/

/-- R153: arithmetic shift left. -/
def execAslAcc (s : State) : Result := shiftA asl8 s
def execAslZp (z : Byte) (s : State) : Result := shiftByte asl8 (.zp z) s
def execAslZpx (z : Byte) (s : State) : Result := shiftByte asl8 (.zpx z) s
def execAslAbs (w : Addr) (s : State) : Result := shiftByte asl8 (.abs w) s
def execAslAbsx (w : Addr) (s : State) : Result := shiftByte asl8 (.absx w) s

/-- R154: logical shift right. -/
def execLsrAcc (s : State) : Result := shiftA lsr8 s
def execLsrZp (z : Byte) (s : State) : Result := shiftByte lsr8 (.zp z) s
def execLsrZpx (z : Byte) (s : State) : Result := shiftByte lsr8 (.zpx z) s
def execLsrAbs (w : Addr) (s : State) : Result := shiftByte lsr8 (.abs w) s
def execLsrAbsx (w : Addr) (s : State) : Result := shiftByte lsr8 (.absx w) s

/-- R155: rotate left through carry. -/
def execRolAcc (s : State) : Result := shiftA (rolWith s) s
def execRolZp (z : Byte) (s : State) : Result := shiftByte (rolWith s) (.zp z) s
def execRolZpx (z : Byte) (s : State) : Result := shiftByte (rolWith s) (.zpx z) s
def execRolAbs (w : Addr) (s : State) : Result := shiftByte (rolWith s) (.abs w) s
def execRolAbsx (w : Addr) (s : State) : Result := shiftByte (rolWith s) (.absx w) s

/-- R156: rotate right through carry. -/
def execRorAcc (s : State) : Result := shiftA (rorWith s) s
def execRorZp (z : Byte) (s : State) : Result := shiftByte (rorWith s) (.zp z) s
def execRorZpx (z : Byte) (s : State) : Result := shiftByte (rorWith s) (.zpx z) s
def execRorAbs (w : Addr) (s : State) : Result := shiftByte (rorWith s) (.abs w) s
def execRorAbsx (w : Addr) (s : State) : Result := shiftByte (rorWith s) (.absx w) s

end Sys2Proof.Machine
end

