-- ==== Sys2Proof/Machine/Fetch.lean ====
section
/-! DEFINITION. The execution loop's work around a meaning (spec/40_engine.md R90 to R92): fetching an instruction byte by byte,
and counting it when it is done. Step.lean only puts these together. -/

namespace Sys2Proof.Machine

/-- FetchByte (R91): the byte at PC and PC advanced by one; the advance is never made from 0xFFFF. -/
def fetchByte (s : State) : Except Fault (Byte × State) :=
  if s.pc = Config.topAddr then .error .addressSpaceExhausted
  else .ok (s.byteAt s.pc, s.setPC (s.pc + 1#16))

/-- The operand bytes a handler consumes, in ascending order (R70, R91). -/
def fetchOperands (h : Handler) (s : State) : Except Fault (Instr × State) :=
  match h with
  | .noOperand i => .ok (i, s)
  | .oneByte f =>
    match fetchByte s with
    | .error e => .error e
    | .ok (b, s1) => .ok (f b, s1)
  | .twoBytes f =>
    match fetchByte s with
    | .error e => .error e
    | .ok (lo, s1) =>
      match fetchByte s1 with
      | .error e => .error e
      | .ok (hi, s2) => .ok (f (joinBytes hi lo), s2)

/-- The opcode fetch, the dispatch and the operand fetches, in the order of the checks of R218: the instruction at PC, and
the state with PC past it (R28). -/
def fetchInstr (s : State) : Except Fault (Instr × State) :=
  match fetchByte s with
  | .error e => .error e
  | .ok (op, s1) =>
    match handlerOf op with
    | none => .error (.unassignedOpcode op s.pc)
    | some h => fetchOperands h s1

/-- The record of an instruction about to run: `Running` unless it is BRK (R90, R93; log entry 2). -/
def beginInstr (s : State) : State := s.setOutcome .running

/-- `IC <- IC + 1` when an instruction completes, BRK included (R42, R90). -/
def retire : Result → Result
  | .next t => .next (t.setIC (t.ic + 1))
  | .fault f => .fault f
  | .refused r => .refused r

/-- A table word stored at PC (`State.withFetchWord`). -/
def placeWord (s : State) (nbits w : Nat) : State :=
  s.setMem (Memory.writeAll s.mem s.pc (tableWordBytes nbits w))

end Sys2Proof.Machine
end

