-- ==== Sys2Proof/Machine/Step.lean ====
section
/-! DEFINITION. One step of the machine (spec/40_engine.md R90). -/

namespace Sys2Proof.Machine

/-- Step() (R90): fetch the instruction at PC, run its meaning, count it. A fetch that fails is the step's stop. -/
def step (s : State) : Host.Outcome State Fault Refusal :=
  match fetchInstr s with
  | .error f => .fault f
  | .ok (i, s1) => retire (exec i (beginInstr s1))

/-- `s` with the bytes of a table word where the next step fetches its instruction: at PC. It stands for the load of a
program from outside, `loadProgram` (R243; log entry 3). -/
def State.withFetchWord (s : State) (nbits w : Nat) : State := placeWord s nbits w

end Sys2Proof.Machine
end

