-- ==== Sys2Proof/Machine/Assembly.lean ====
section
/-! DEFINITION. The assembler notation of spec/30_encoding.md R83: how an instruction is spelled, and the displacement byte an
assembler stores for a branch to a label. The machine is given bytes (R84), so no step uses any of it. -/

namespace Sys2Proof.Machine

/-- The three-letter upper-case mnemonic. -/
def mnemonicText : Mnemonic → String
  | .lda => "LDA" | .ldx => "LDX" | .ldy => "LDY"
  | .sta => "STA" | .stx => "STX" | .sty => "STY" | .stz => "STZ"
  | .adc => "ADC" | .sbc => "SBC"
  | .inc => "INC" | .dec => "DEC" | .inx => "INX" | .iny => "INY" | .dex => "DEX"
  | .dey => "DEY"
  | .and => "AND" | .ora => "ORA" | .eor => "EOR"
  | .asl => "ASL" | .lsr => "LSR" | .rol => "ROL" | .ror => "ROR"
  | .cmp => "CMP" | .cpx => "CPX" | .cpy => "CPY"
  | .bcc => "BCC" | .bcs => "BCS" | .beq => "BEQ" | .bne => "BNE" | .bmi => "BMI"
  | .bpl => "BPL" | .bvc => "BVC" | .bvs => "BVS" | .bra => "BRA"
  | .clc => "CLC" | .sec => "SEC" | .cld => "CLD" | .sed => "SED" | .cli => "CLI"
  | .sei => "SEI" | .clv => "CLV"
  | .pha => "PHA" | .php => "PHP" | .phx => "PHX" | .phy => "PHY" | .pla => "PLA"
  | .plp => "PLP" | .plx => "PLX" | .ply => "PLY" | .tsx => "TSX" | .txs => "TXS"
  | .tsb => "TSB" | .trb => "TRB"
  | .jmp => "JMP" | .brk => "BRK" | .nop => "NOP" | .rti => "RTI"

def hexDigit (n : Nat) : String := ["0", "1", "2", "3", "4", "5", "6", "7", "8", "9", "A", "B", "C", "D", "E", "F"].getD n "?"

/-- `nn`. -/
def hexByte (b : Byte) : String := hexDigit (b.toNat / 16) ++ hexDigit (b.toNat % 16)

/-- `nnnn`. -/
def hexWord (w : Addr) : String := hexByte (highByte w) ++ hexByte (lowByte w)

/-- A branch's operand as an offset from its own opcode byte, `*` (log entry 15). R83 gives `*+n` alone: that `*` is the
opcode byte and that n is decimal are PRESUMED, and the spelling `*-n` of a negative offset is a DESIGN CHOICE. -/
def relativeText (d : Byte) : String :=
  let n : Int := d.toInt + 2
  if 0 ≤ n then "*+" ++ toString n.toNat else "*-" ++ toString (-n).toNat

/-- The operand column of R83's table; two digits are a zero-page form, four an absolute form. -/
def operandText : Operand → String
  | .implied => ""
  | .acc => " A"
  | .imm v => " #$" ++ hexByte v
  | .mem (.zp z) => " $" ++ hexByte z
  | .mem (.zpx z) => " $" ++ hexByte z ++ ",X"
  | .mem (.zpy z) => " $" ++ hexByte z ++ ",Y"
  | .mem (.abs w) => " $" ++ hexWord w
  | .mem (.absx w) => " $" ++ hexWord w ++ ",X"
  | .mem (.absy w) => " $" ++ hexWord w ++ ",Y"
  | .mem (.indx z) => " ($" ++ hexByte z ++ ",X)"
  | .mem (.indy z) => " ($" ++ hexByte z ++ "),Y"
  | .mem (.zpi z) => " ($" ++ hexByte z ++ ")"
  | .rel d => " " ++ relativeText d

def instrText (i : Instr) : String := mnemonicText i.mnemonic ++ operandText i.operand

/-- `rel8 = target - (address of the branch opcode + 2)`, rejected outside -128 to +127 (R83, REL). -/
def assembleRel (target opcodeAddr : Addr) : Option Byte :=
  let d : Int := (target.toNat : Int) - ((opcodeAddr.toNat : Int) + 2)
  if -128 ≤ d ∧ d ≤ 127 then some (BitVec.ofInt 8 d) else none

end Sys2Proof.Machine
end

