-- ==== Sys2Proof/Machine/HostInterface.lean ====
section
/-! DEFINITION. The host operations (spec/70_reset_and_hazards.md R240 to R246): `reset()`, `loadProgram`, the single-step entry,
`execute()` under fuel (R253), and the accessors. -/

namespace Sys2Proof.Machine

/-- `reset()` (R242, R44): every register, P, PC and IC zero; Mem unchanged. -/
def hostReset (s : State) : State := State.reset.setMem s.mem

/-- `loadProgram(bytes, length)` (R243, R214): the bytes go to address 0 upward and nothing else changes; more than 65,536
are rejected before any copy. -/
def loadProgram (bytes : List Byte) (s : State) : Result :=
  if bytes.length ≤ Config.memSize then
    .next (s.setMem (Memory.writeAll s.mem (BitVec.ofNat 16 Config.loadBase) bytes))
  else .fault (.oversizedProgramLoad bytes.length)

/-- What a step returns to the host (R13, R93). -/
inductive StepOutcome where
  | running
  | halt
  | unassignedOpcode (op : Byte) (addr : Addr)
  | addressSpaceExhausted
deriving DecidableEq, Repr

/-- The single-step entry (R94): one step's outcome and the state it leaves, `none` where the model gives no meaning (which
no state reaches: `Obligations.StepNeverRefuses`). -/
def singleStep (s : State) : Option (StepOutcome × State) :=
  match step s with
  | .next t =>
    match t.outcome with
    | .running => some (.running, t)
    | .halt => some (.halt, t)
  | .fault (.unassignedOpcode op addr) =>
    some (.unassignedOpcode op addr, stopState (.unassignedOpcode op addr) s)
  | .fault .addressSpaceExhausted => some (.addressSpaceExhausted, stopState .addressSpaceExhausted s)
  | .fault (.oversizedProgramLoad _) => none
  | .refused _ => none

/-- `execute()` (R244) under fuel: single steps until one does not return Running. `running` as the result means that the
fuel ran out, which is neither success nor error (R253). -/
def execute : Nat → State → Option (StepOutcome × State)
  | 0, s => some (.running, s)
  | n + 1, s =>
    match singleStep s with
    | some (.running, t) => execute n t
    | r => r

/-- What the host can read (R245). -/
inductive Accessor where
  | register (r : Reg)
  | status
  | programCounter
  | memory (addr : Addr)
  | instructionCounter
deriving DecidableEq, Repr

/-- The read-only accessors (R245): each value exactly as stored. -/
def access (q : Accessor) (s : State) : Nat :=
  match q with
  | .register r => (s.reg r).toNat
  | .status => s.p.toNat
  | .programCounter => s.pc.toNat
  | .memory addr => (s.byteAt addr).toNat
  | .instructionCounter => s.ic

end Sys2Proof.Machine
end

