-- ==== Sys2Proof/Machine/Observe.lean ====
section
/-! DEFINITION. What an observer of a step sees: the trace callback's observation (spec/60_exceptions.md R228) and the memory
accesses in their order (20_memory.md R57). Neither is state and no rule reads either (R21). -/

namespace Sys2Proof.Machine

/-! ## The trace callback -/

/-- "The resolved operand" of an observation (92_eei_decisions.md D18). -/
inductive TraceOperand where
  | absent
  | value (imm : Byte)
  | address (ea : Addr)
deriving DecidableEq, Repr

/-- One observation (R228). -/
structure Observation where
  mnemonic : Mnemonic
  format : Format
  operand : TraceOperand
deriving DecidableEq, Repr

/-- The operand as the instruction resolved it, in the state after its fetch. -/
def traceOperand (o : Operand) (s : State) : TraceOperand :=
  match o with
  | .implied | .acc => .absent
  | .imm v => .value v
  | .mem m => .address (resolve m s)
  | .rel d => .address (branchTarget d s)

/-- The observation a step emits: one if its instruction completes, BRK included; none if the step ends in an error. -/
def trace (s : State) : Option Observation :=
  match fetchInstr s with
  | .error _ => none
  | .ok (i, s1) => some { mnemonic := i.mnemonic, format := i.format, operand := traceOperand i.operand s1 }

/-! ## The order of memory accesses -/

/-- One access of one byte (R55). -/
inductive Access where
  | fetch (addr : Addr)
  | read (addr : Addr)
  | write (addr : Addr)
deriving DecidableEq, Repr

/-- What a mnemonic does at the address its operand resolves to, or on the stack (R57, items 4 to 6). -/
inductive DataUse where
  | nothing | reads | writes | readsThenWrites | pushes | pulls (n : Nat)
deriving DecidableEq, Repr

/-- The data use of each mnemonic: the Operation lines of R130 to R205. -/
def dataUse : Mnemonic → DataUse
  | .lda | .ldx | .ldy | .adc | .sbc | .and | .ora | .eor | .cmp | .cpx | .cpy => .reads
  | .sta | .stx | .sty | .stz => .writes
  | .inc | .dec | .asl | .lsr | .rol | .ror | .tsb | .trb => .readsThenWrites
  | .pha | .php | .phx | .phy => .pushes
  | .pla | .plp | .plx | .ply => .pulls 1
  | .rti => .pulls 3
  | .inx | .iny | .dex | .dey | .bcc | .bcs | .beq | .bne | .bmi | .bpl | .bvc | .bvs | .bra
  | .clc | .sec | .cld | .sed | .cli | .sei | .clv | .tsx | .txs | .jmp | .brk | .nop => .nothing

/-- The reads of a zero-page pointer, low byte then high byte (R57 item 3, R95). -/
def pointerReads (m : AddrMode) (s : State) : List Access :=
  match m with
  | .indx z => [.read (zeroPage (z + s.x)), .read (zeroPage (z + s.x + 1#8))]
  | .indy z | .zpi z => [.read (zeroPage z), .read (zeroPage (z + 1#8))]
  | .zp _ | .zpx _ | .zpy _ | .abs _ | .absx _ | .absy _ => []

/-- The accesses at the effective address (R57 items 4 and 5). -/
def dataAccesses (u : DataUse) (ea : Addr) : List Access :=
  match u with
  | .reads => [.read ea]
  | .writes => [.write ea]
  | .readsThenWrites => [.read ea, .write ea]
  | .nothing | .pushes | .pulls _ => []

/-- `n` pulls from offset `sp` (R57 item 6). -/
def pullReads : Nat → Byte → List Access
  | 0, _ => []
  | n + 1, sp => .read (stackAddr (sp + 1#8)) :: pullReads n (sp + 1#8)

/-- The accesses of an instruction after its fetch, in order. -/
def operationAccesses (i : Instr) (s : State) : List Access :=
  match i.operand with
  | .mem m => pointerReads m s ++ dataAccesses (dataUse i.mnemonic) (resolve m s)
  | .implied =>
    match dataUse i.mnemonic with
    | .pushes => [.write (stackAddr s.sp)]
    | .pulls n => pullReads n s.sp
    | .nothing | .reads | .writes | .readsThenWrites => []
  | .acc | .imm _ | .rel _ => []

/-- The fetches of `n` instruction bytes from `pc` (R57 items 1 and 2). The byte at 0xFFFF is read, and then the stop is
raised: no fetch follows it (R91, decision D6). -/
def fetches : Nat → Addr → List Access
  | 0, _ => []
  | n + 1, pc => .fetch pc :: if pc = Config.topAddr then [] else fetches n (pc + 1#16)

/-- How many bytes the step at PC sets out to fetch: all of its handler's, or the opcode byte alone where it has none (R92,
R218). -/
def fetchLength (s : State) : Nat :=
  match handlerOf (s.byteAt s.pc) with
  | none => 1
  | some h => h.length

/-- The accesses of a step (R57). One that ends in an error has read the bytes it fetched, and does nothing else (R91, R218). -/
def accesses (s : State) : List Access :=
  fetches (fetchLength s) s.pc ++
    match fetchInstr s with
    | .error _ => []
    | .ok (i, s1) => operationAccesses i s1

end Sys2Proof.Machine
end

