-- ==== Sys2Proof/WellFormed.lean ====
section
/-! DEFINITION. Which instructions may stand where. Inside an assigned instruction no operand value is illegal or reserved
(spec/30_encoding.md R82) and the types of `Instr` admit no others, so there is nothing to check in an instruction alone; what
can be wrong is where it lies: an instruction with a byte at 0xFFFF is never executed (40_engine.md R91). -/

namespace Sys2Proof

/-- The instruction lies at `pc` with every byte of it below 0xFFFF, so that its fetch can be completed (R91, R213): at
0xFFFF nothing executes, at 0xFFFE only one byte, at 0xFFFD at most two. -/
def Instr.wellFormedAt (i : Instr) (pc : Addr) : Bool := decide (pc.toNat + i.length ≤ Config.topAddr.toNat)

/-- A program image that `loadProgram` accepts (R243: `MAX_LOAD`). -/
def imageWellFormed (bytes : List Byte) : Bool := decide (bytes.length ≤ Config.memSize)

end Sys2Proof
end

