-- ==== Sys2Proof/Safety.lean ====
section
/-! DEFINITION. The terms the claims are stated in: the invariant of the state, what a meaning does (`Does`: what it writes and
that it leaves everything else alone), what a step does to the machine as its host sees it, and a normal run. -/

namespace Sys2Proof.Machine

/-! ## The invariant -/

/-- Written memory is in canonical form. Every other bound of 10_state.md R43 is a bound of a field's type. -/
abbrev State.Inv (s : State) : Prop := Memory.wf s.mem

/-! ## Effects -/

/-- What an instruction writes. An empty list or `none` means: nothing. -/
structure Effect where
  regs : List (Reg × Byte) := []
  flags : List (Flag × Bool) := []
  bytes : List (Addr × Byte) := []
  pc : Option Addr := none
  outcome : Option Ending := none

/-- The meaning answers a next state that holds what `e` says is written and everything else as `s` had it: every register,
every flag, every byte of memory, PC, IC and the record of the outcome. -/
def Does (e : Effect) (s : State) (out : Result) : Prop :=
  ∃ t, out = .next t ∧
    (∀ w ∈ e.regs, t.reg w.1 = w.2) ∧ (∀ r, r ∉ e.regs.map Prod.fst → t.reg r = s.reg r) ∧
    (∀ w ∈ e.flags, t.flag w.1 = w.2) ∧ (∀ f, f ∉ e.flags.map Prod.fst → t.flag f = s.flag f) ∧
    (∀ w ∈ e.bytes, t.byteAt w.1 = w.2) ∧ (∀ a, a ∉ e.bytes.map Prod.fst → t.byteAt a = s.byteAt a) ∧
    t.pc = e.pc.getD s.pc ∧ t.ic = s.ic ∧ t.outcome = e.outcome.getD s.outcome

/-- N and Z from a result byte (R32, R107). -/
def nz (r : Byte) : List (Flag × Bool) := [(.n, r.getLsbD 7), (.z, decide (r.toNat = 0))]

/-- All eight bits of P from a byte (R31). -/
def allFlags (v : Byte) : List (Flag × Bool) :=
  [(.c, v.getLsbD 0), (.z, v.getLsbD 1), (.i, v.getLsbD 2), (.d, v.getLsbD 3),
   (.b, v.getLsbD 4), (.u, v.getLsbD 5), (.v, v.getLsbD 6), (.n, v.getLsbD 7)]

/-- `v mod 256` as a byte (R10). -/
def mod256 (n : Nat) : Byte := BitVec.ofNat 8 n

/-- `v mod 65536` as a word (R10). -/
def mod65536 (n : Nat) : Addr := BitVec.ofNat 16 n

/-- A signed value that does not fit in 8 bits (R110, R111). -/
def outOfSignedRange (n : Int) : Bool := decide (n < -128) || decide (127 < n)

/-- `bytes` are the instruction `i` and nothing more, and its meaning does `e` at `s`. -/
def Runs (bytes : List Byte) (i : Instr) (e : Effect) (s : State) : Prop :=
  decode bytes = .ok (i, []) ∧ Does e s (exec i s)

/-- `r` receives `m`, and N and Z follow it. -/
def loads (r : Reg) (m : Byte) : Effect := { regs := [(r, m)], flags := nz m }

/-- `ea` receives `v`, and no flag. -/
def stores (ea : Addr) (v : Byte) : Effect := { bytes := [(ea, v)] }

/-- `ea` receives `v`, and N and Z follow it. -/
def modifies (ea : Addr) (v : Byte) : Effect := { bytes := [(ea, v)], flags := nz v }

/-- `r` receives `v`, N and Z follow it, and C receives `c`. -/
def loadsWithCarry (r : Reg) (v : Byte) (c : Bool) : Effect := { regs := [(r, v)], flags := (.c, c) :: nz v }

/-- `ea` receives `v`, N and Z follow it, and C receives `c`. -/
def modifiesWithCarry (ea : Addr) (v : Byte) (c : Bool) : Effect := { bytes := [(ea, v)], flags := (.c, c) :: nz v }

/-- A compare of `reg` with `m`: C, and N and Z from the unsaved difference. -/
def compares (reg m : Byte) : Effect :=
  { flags := (.c, decide (m.toNat ≤ reg.toNat)) :: nz (mod256 (reg.toNat + (256 - m.toNat))) }

/-- ADC of `m`: the 9-bit sum with the carry; V says that the exact signed sum does not fit in 8 bits. -/
def adds (s : State) (m : Byte) : Effect :=
  let sum := s.a.toNat + m.toNat + (s.flag .c).toNat
  { regs := [(.a, mod256 sum)],
    flags := (.c, decide (255 < sum)) :: (.v, outOfSignedRange (s.a.toInt + m.toInt + (s.flag .c).toNat)) :: nz (mod256 sum) }

/-- SBC of `m`: the difference with the borrow, 1 less the carry; C says that it is not negative, V that the exact signed
difference does not fit in 8 bits. -/
def subtracts (s : State) (m : Byte) : Effect :=
  let borrow := 1 - (s.flag .c).toNat
  let diff := s.a.toNat + 256 - m.toNat - borrow
  { regs := [(.a, mod256 diff)],
    flags := (.c, decide (m.toNat + borrow ≤ s.a.toNat)) ::
      (.v, outOfSignedRange (s.a.toInt - m.toInt - borrow)) :: nz (mod256 diff) }

/-- `b` goes to the free slot of the stack and SP moves down. -/
def pushes (s : State) (b : Byte) : Effect :=
  { regs := [(.sp, mod256 (s.sp.toNat + 255))], bytes := [(stackAddr s.sp, b)] }

/-- SP after `n` pulls. -/
def spAfter (s : State) (n : Nat) : Byte := mod256 (s.sp.toNat + n)

/-- The byte the `n`-th pull gives (the first is `n = 1`). -/
def pulled (s : State) (n : Nat) : Byte := s.byteAt (stackAddr (spAfter s n))

/-- `r` receives the pulled byte, SP moves up, N and Z follow the byte. -/
def pullsTo (s : State) (r : Reg) : Effect :=
  { regs := [(r, pulled s 1), (.sp, spAfter s 1)], flags := nz (pulled s 1) }

/-- The target of a taken branch, `s.pc` being the address after the displacement byte: `PC + sext(d)` modulo 65536. -/
def jumpsBy (s : State) (taken : Bool) (d : Byte) : Effect :=
  { pc := some (if taken then BitVec.ofInt 16 ((s.pc.toNat : Int) + d.toInt) else s.pc) }

/-- The bytes at `pc`, `pc + 1`, `pc + 2`: as many as the longest instruction has. -/
def bytesAtPC (s : State) : List Byte := [s.byteAt s.pc, s.byteAt (s.pc + 1#16), s.byteAt (s.pc + 2#16)]

/-! ## Whole-machine tables -/

/-- The flag write matrix (R38). -/
def flagsWritten : Mnemonic → List Flag
  | .lda | .ldx | .ldy | .inc | .dec | .inx | .iny | .dex | .dey | .and | .ora | .eor => [.n, .z]
  | .adc | .sbc => [.n, .v, .z, .c]
  | .asl | .lsr | .rol | .ror | .cmp | .cpx | .cpy => [.n, .z, .c]
  | .clc | .sec => [.c]
  | .cld | .sed => [.d]
  | .cli | .sei => [.i]
  | .clv => [.v]
  | .pla | .plx | .ply | .tsx | .tsb | .trb => [.n, .z]
  | .plp | .rti => [.c, .z, .i, .d, .b, .u, .v, .n]
  | .sta | .stx | .sty | .stz | .bcc | .bcs | .beq | .bne | .bmi | .bpl | .bvc | .bvs | .bra
  | .pha | .php | .phx | .phy | .txs | .jmp | .brk | .nop => []

/-- The registers each instruction writes (R22 to R24, R26): its destination, and SP for the stack instructions. -/
def regsWritten (i : Instr) : List Reg :=
  match i.mnemonic with
  | .lda | .adc | .sbc | .and | .ora | .eor => [.a]
  | .asl | .lsr | .rol | .ror => if i.operand = .acc then [.a] else []
  | .ldx | .inx | .dex | .tsx => [.x]
  | .ldy | .iny | .dey => [.y]
  | .pha | .php | .phx | .phy | .plp | .rti | .txs => [.sp]
  | .pla => [.a, .sp]
  | .plx => [.x, .sp]
  | .ply => [.y, .sp]
  | .sta | .stx | .sty | .stz | .inc | .dec | .cmp | .cpx | .cpy | .tsb | .trb
  | .bcc | .bcs | .beq | .bne | .bmi | .bpl | .bvc | .bvs | .bra
  | .clc | .sec | .cld | .sed | .cli | .sei | .clv | .jmp | .brk | .nop => []

/-- The instructions that may set PC themselves (R28): branches, JMP and RTI. -/
def setsPC : Mnemonic → Bool
  | .bcc | .bcs | .beq | .bne | .bmi | .bpl | .bvc | .bvs | .bra | .jmp | .rti => true
  | .lda | .ldx | .ldy | .sta | .stx | .sty | .stz | .adc | .sbc | .inc | .dec | .inx | .iny | .dex | .dey
  | .and | .ora | .eor | .asl | .lsr | .rol | .ror | .cmp | .cpx | .cpy | .clc | .sec | .cld | .sed | .cli | .sei | .clv
  | .pha | .php | .phx | .phy | .pla | .plp | .plx | .ply | .tsx | .txs | .tsb | .trb | .brk | .nop => false

/-- The 93 byte values with no handler, as R80 lists them. -/
def unassignedBytes : List Byte :=
  ([0x02, 0x03, 0x07, 0x0B, 0x0F, 0x13, 0x17, 0x1A, 0x1B, 0x1F, 0x20, 0x22, 0x23, 0x24, 0x27, 0x2B, 0x2C, 0x2F, 0x33, 0x34] ++
   [0x37, 0x3A, 0x3B, 0x3C, 0x3F, 0x42, 0x43, 0x44, 0x47, 0x4B, 0x4F, 0x53, 0x54, 0x57, 0x5B, 0x5C, 0x5F, 0x60, 0x62, 0x63] ++
   [0x67, 0x6B, 0x6C, 0x6F, 0x73, 0x77, 0x7B, 0x7C, 0x7F, 0x82, 0x83, 0x87, 0x89, 0x8A, 0x8B, 0x8F, 0x93, 0x97, 0x98, 0x9B] ++
   [0x9F, 0xA3, 0xA7, 0xA8, 0xAA, 0xAB, 0xAF, 0xB3, 0xB7, 0xBB, 0xBF, 0xC2, 0xC3, 0xC7, 0xCB, 0xCF, 0xD3, 0xD4, 0xD7, 0xDB] ++
   [0xDC, 0xDF, 0xE2, 0xE3, 0xE7, 0xEB, 0xEF, 0xF3, 0xF4, 0xF7, 0xFB, 0xFC, 0xFF])

/-! ## Runs -/

/-- Pushing the bytes of a list one after the other (R118). -/
def pushAll : List Byte → State → State
  | [], s => s
  | b :: rest, s => pushAll rest (push b s)

/-- `n` pulls one after the other (R119): the bytes in the order they come, and the state left. -/
def pullMany : Nat → State → List Byte × State
  | 0, s => ([], s)
  | n + 1, s =>
    let (b, s1) := pull s
    let (bs, s2) := pullMany n s1
    (b :: bs, s2)

/-- A normal run: `execute()` ends in `Halt` (R93; an error stop is never a normal end, R222). -/
def HaltsWithin (n : Nat) (s t : State) : Prop := execute n s = some (.halt, t)

end Sys2Proof.Machine
end

