-- ==== Sys2Proof/Certificates/Slice0/Obligations.lean ====
section
/-! DEFINITION. The statements for the provers. Each says what a rule, or a group of rules, of spec/ says of the machine; its
docstring names what of it is a decision of the spec's or a choice of the model's. -/

open Sys2Proof Sys2Proof.Machine

/-- Decoding an encoded instruction gives it back. For every instruction, with every value of its operand, and whatever bytes
follow it, decoding its encoding answers that instruction and leaves the bytes that follow. [30_encoding.md R70,
30_encoding.md R71, 30_encoding.md R74] -/
def Obligations.DecodeOfEncodeIsTheInstruction : Prop :=
  ∀ (i : Instr) (rest : List Byte), decode (encode i ++ rest) = .ok (i, rest)

/-- Encoding a decoded instruction gives its bytes back. Whenever a list of bytes decodes to an instruction, the encoding of
that instruction and the bytes left over are that list: no two lists decode to one instruction and no bit of an operand is
dropped. [30_encoding.md R70, 30_encoding.md R72, 30_encoding.md R74, 30_encoding.md R75] -/
def Obligations.EncodeOfDecodeIsTheBytes : Prop :=
  ∀ (bs : List Byte) (i : Instr) (rest : List Byte), decode bs = .ok (i, rest) → encode i ++ rest = bs

/-- The nine opcode bytes the source shows decode to the instructions it names. The bytes of the source's scenarios decode to
the instructions of their assembly text: 00 is BRK, A9 LDA #, 29 AND #, 4A LSR A, 48 PHA, 68 PLA, BA TSX, 85 STA zp, E6 INC
zp. [R77] -/
def Obligations.NineShownOpcodesDecode : Prop :=
  decode [0x00#8] = .ok (.brk, []) ∧ decode [0xA9#8, 0x42#8] = .ok (.ldaImm 0x42#8, []) ∧
  decode [0x29#8, 0xF0#8] = .ok (.andImm 0xF0#8, []) ∧ decode [0x4A#8] = .ok (.lsrAcc, []) ∧
  decode [0x48#8] = .ok (.pha, []) ∧ decode [0x68#8] = .ok (.pla, []) ∧ decode [0xBA#8] = .ok (.tsx, []) ∧
  decode [0x85#8, 0x20#8] = .ok (.staZp 0x20#8, []) ∧ decode [0xE6#8, 0x20#8] = .ok (.incZp 0x20#8, [])

/-- A step runs the instruction the bytes at PC decode to. When the bytes at PC decode to an instruction and every byte of it
lies below 0xFFFF, the step is that instruction's meaning, run with PC past the instruction and the outcome record set to
running, and then one more in IC. The outcome record is the model's own (log entry 2); counting in IC is the spec's decision
D4, the bound 0xFFFF its decision D6. [40_engine.md R90, 40_engine.md R91, 10_state.md R28] -/
def Obligations.StepRunsTheDecodedInstruction : Prop :=
  ∀ (s : State) (i : Instr) (rest : List Byte),
    decode (bytesAtPC s) = .ok (i, rest) → i.wellFormedAt s.pc = true →
      ∃ t, exec i ((s.setPC (s.pc + BitVec.ofNat 16 i.length)).setOutcome .running) = .next t ∧
        step s = .next (t.setIC (t.ic + 1))

/-- The checks of a step and their order. At PC = 0xFFFF the step is AddressSpaceExhausted whatever the byte there. Elsewhere a
byte without a handler gives UnassignedOpcode with that byte and address; a handler's instruction with a byte at 0xFFFF
gives AddressSpaceExhausted; every other step answers a next state. The order and the bound are the spec's decisions D12 and
D6. [60_exceptions.md R218, 60_exceptions.md R212, 60_exceptions.md R213, 40_engine.md R91, 40_engine.md R92,
92_eei_decisions.md D6, 92_eei_decisions.md D12] -/
def Obligations.StepEndsInItsFirstFailedCheck : Prop :=
  ∀ s : State,
    (s.pc = 0xFFFF#16 → step s = .fault .addressSpaceExhausted) ∧
    (s.pc ≠ 0xFFFF#16 →
      (handlerOf (s.byteAt s.pc) = none → step s = .fault (.unassignedOpcode (s.byteAt s.pc) s.pc)) ∧
      (∀ h, handlerOf (s.byteAt s.pc) = some h →
        (65535 < s.pc.toNat + h.length → step s = .fault .addressSpaceExhausted) ∧
        (s.pc.toNat + h.length ≤ 65535 → ∃ t, step s = .next t)))

/-- Exactly the 93 byte values of R80 have no handler. A byte value has no handler if and only if R80 lists it, there are 93 of
them, and a step that fetches one below 0xFFFF raises UnassignedOpcode with the byte and its address and leaves PC one past
it and everything else unchanged. Which bytes they are rests on the opcode map (decision D1), the state left on decision
D12. [30_encoding.md R80, 40_engine.md R92, 60_exceptions.md R212] -/
def Obligations.NinetyThreeBytesAreUnassigned : Prop :=
  unassignedBytes.length = 93 ∧ (∀ b : Byte, handlerOf b = none ↔ b ∈ unassignedBytes) ∧
  ∀ s : State, s.pc ≠ 0xFFFF#16 → s.byteAt s.pc ∈ unassignedBytes →
    step s = .fault (.unassignedOpcode (s.byteAt s.pc) s.pc) ∧
      singleStep s = some (.unassignedOpcode (s.byteAt s.pc) s.pc, s.setPC (s.pc + 1#16))

/-- A step answers a next state or one of the two stops, and a fetched instruction always completes. No step refuses, no step
raises an error other than UnassignedOpcode of the byte and address at PC or AddressSpaceExhausted; a step whose instruction
was fetched answers a next state; and the single-step entry always answers. [60_exceptions.md R210, 60_exceptions.md R217,
60_exceptions.md R211] -/
def Obligations.StepNeverRefuses : Prop :=
  ∀ s : State,
    ((∃ t, step s = .next t) ∨ step s = .fault .addressSpaceExhausted ∨
      step s = .fault (.unassignedOpcode (s.byteAt s.pc) s.pc)) ∧
    (∀ i u, fetchInstr s = .ok (i, u) → ∃ t, step s = .next t) ∧
    (singleStep s).isSome = true

/-- An error stop changes nothing but PC. When the single-step entry answers an error outcome, the state it leaves differs from
the state before the step in PC alone, and PC is one past the unassigned byte or 0xFFFF. (That earlier instructions
completed is what a step is.) [R219] -/
def Obligations.ErrorStopsChangeOnlyPC : Prop :=
  ∀ (s t : State) (o : StepOutcome), singleStep s = some (o, t) → o ≠ .running → o ≠ .halt →
    t = s.setPC t.pc ∧
      ((o = .unassignedOpcode (s.byteAt s.pc) s.pc ∧ t.pc = s.pc + 1#16) ∨ (o = .addressSpaceExhausted ∧ t.pc = 0xFFFF#16))

/-- After AddressSpaceExhausted a new step gives the same outcome and changes nothing. When a single step ends in
AddressSpaceExhausted, a single step from the state it left ends in AddressSpaceExhausted and leaves that state as it is.
[40_engine.md R94, 95_test_vectors.md H7] -/
def Obligations.ExhaustionRecursAtOnce : Prop :=
  ∀ s t : State, singleStep s = some (.addressSpaceExhausted, t) → singleStep t = some (.addressSpaceExhausted, t)

/-- A completed step ends in Halt exactly when the byte at PC was 0x00, and a halting step changes only PC and IC. A step that
completes leaves the record at halt if and only if the opcode byte is 0x00. With 0x00 at PC below 0xFFFF the single-step
entry answers Halt with PC one further, IC one more and every register, P and memory as before. PC after the halt is the
spec's decision D13, IC its decision D4; the record is the model's (log entry 2). [40_engine.md R93, 46_bits_control.md
R203, 92_eei_decisions.md D13, 92_eei_decisions.md D4] -/
def Obligations.HaltIsExactlyAFetchedZeroByte : Prop :=
  (∀ s t : State, step s = .next t → (t.outcome = .halt ↔ s.byteAt s.pc = 0x00#8)) ∧
  (∀ s : State, s.pc ≠ 0xFFFF#16 → s.byteAt s.pc = 0x00#8 →
    singleStep s = some (.halt, ((s.setPC (s.pc + 1#16)).setIC (s.ic + 1)).setOutcome .halt))

/-- A byte holds exactly what was last written to it, for data and for the instruction stream. After a write of v at any of the
65,536 addresses, a read of that address gives v and a read of any other gives what it gave before; an instruction-stream
fetch at PC below 0xFFFF delivers the byte a read of PC gives, whatever was written before; a write changes nothing but
memory, and a read is a value and changes nothing. [R53] -/
def Obligations.ByteHoldsTheLastWrite : Prop :=
  ∀ (s : State) (a b : Addr) (v : Byte),
    (s.writeByte a v).byteAt b = (if b = a then v else s.byteAt b) ∧
    (s.pc ≠ 0xFFFF#16 →
      fetchByte (s.writeByte a v) =
        .ok (if s.pc = a then v else s.byteAt s.pc, (s.writeByte a v).setPC (s.pc + 1#16))) ∧
    s.writeByte a v = s.setMem (s.writeByte a v).mem

/-- Every step keeps the invariant. From every state whose written memory is in canonical form (addresses strictly rising, each
below 65,536), a step that answers a next state gives a state whose written memory is. The form is the model's (log entry
1); that every address stays inside the 65,536 bytes is the spec's. [20_memory.md R50, 10_state.md R43, 10_state.md R41] -/
def Obligations.StepKeepsMemoryCanonical : Prop :=
  ∀ s t : State, s.Inv → step s = .next t → t.Inv

/-- The state of a machine just created and reset. State.reset is a machine just created and then reset (log entry 4, DESIGN
CHOICE). In it A, X, Y, SP and P are 0, PC is 0x0000, IC is 0 (the spec's decision D4) and every flag is clear. R44 says of
memory only that reset() leaves it unchanged: that nothing is written in it, and that the invariant holds, are the model's
(log entries 4 and 1, DESIGN CHOICE). [10_state.md R44, 70_reset_and_hazards.md R242, 10_state.md R43] -/
def Obligations.ResetStateIsAllZero : Prop :=
  (∀ r, State.reset.reg r = 0x00#8) ∧ State.reset.p = 0x00#8 ∧ State.reset.pc = 0x0000#16 ∧ State.reset.ic = 0 ∧
  State.reset.mem = [] ∧ (∀ f, State.reset.flag f = false) ∧ State.reset.Inv

/-- reset() zeroes every register, P, PC and IC, leaves memory, and is idempotent. From any state, reset() gives A = X = Y = SP
= P = 0, PC = 0, IC = 0 and every byte of memory as it was; applied twice it gives what it gives once. (IC is also the
spec's decision D4.) [R242] -/
def Obligations.HostResetZeroesAllButMemory : Prop :=
  ∀ s : State,
    (∀ r, (hostReset s).reg r = 0x00#8) ∧ (hostReset s).p = 0x00#8 ∧ (hostReset s).pc = 0x0000#16 ∧
    (hostReset s).ic = 0 ∧ (∀ a, (hostReset s).byteAt a = s.byteAt a) ∧ hostReset (hostReset s) = hostReset s

/-- loadProgram copies exactly its bytes to address 0 upward. For at most 65,536 bytes, loadProgram answers a state in which
byte k of the program is at address k, every address past the program is as before, and every register, P, PC and IC are
unchanged (the last by the spec's decision D19). That the length the host gives is the number of the bytes is the model's
(log entry 16, DEDUCED), and so is the last clause, that the load keeps the canonical form of memory (log entry 1, DESIGN
CHOICE). [70_reset_and_hazards.md R243, 92_eei_decisions.md D19] -/
def Obligations.LoadProgramReadsBack : Prop :=
  ∀ (bytes : List Byte) (s : State), bytes.length ≤ 65536 →
    ∃ t, loadProgram bytes s = .next t ∧
      (∀ (k : Nat) (h : k < bytes.length), t.byteAt (BitVec.ofNat 16 k) = bytes[k]) ∧
      (∀ a : Addr, bytes.length ≤ a.toNat → t.byteAt a = s.byteAt a) ∧
      t = s.setMem t.mem ∧ (s.Inv → t.Inv)

/-- loadProgram rejects more than 65,536 bytes and changes nothing. For more than 65,536 bytes, loadProgram answers
OversizedProgramLoad with the length, and the state left is the state before. That the length is the number of the bytes
given is the model's (log entry 16, DEDUCED). A fault carries no state in the model: the state left is the arm of stopState
for this fault, which no operation applies (log entry 8, DESIGN CHOICE). [60_exceptions.md R214, 70_reset_and_hazards.md
R243, 92_eei_decisions.md D12] -/
def Obligations.OversizedLoadIsRejected : Prop :=
  ∀ (bytes : List Byte) (s : State), 65536 < bytes.length →
    loadProgram bytes s = .fault (.oversizedProgramLoad bytes.length) ∧
      stopState (.oversizedProgramLoad bytes.length) s = s

/-- execute() is the iteration of single steps, and an ended run does not depend on the fuel. One step of fuel is one single
step; a run that n steps of fuel leave running is what m more steps make of the state they left; and once execute() ends in
Halt or an error, any more fuel gives the same outcome and state. That execute() runs under fuel, and that running means the
fuel ran out, is the model's (log entry 16, DESIGN CHOICE). [70_reset_and_hazards.md R244, 70_reset_and_hazards.md R253,
40_engine.md R94] -/
def Obligations.MoreFuelDoesNotChangeAnEndedRun : Prop :=
  (∀ s : State, execute 1 s = singleStep s) ∧
  (∀ (n m : Nat) (s t : State), execute n s = some (.running, t) → execute (n + m) s = execute m t) ∧
  ∀ (n k : Nat) (s t : State) (o : StepOutcome),
    execute n s = some (o, t) → o ≠ .running → execute (n + k) s = some (o, t)

/-- A completed step adds exactly one to IC. Whatever the instruction, BRK included, a step that answers a next state leaves IC
one higher; this is the spec's decision D4. [10_state.md R42, 60_exceptions.md R225, 92_eei_decisions.md D4] -/
def Obligations.CompletedStepCountsOne : Prop :=
  ∀ s t : State, step s = .next t → t.ic = s.ic + 1

/-- IC influences nothing but itself. Two states that differ in IC alone step alike: both answer next states that differ in IC
alone, or both stop with the same fault. [10_state.md R42, 60_exceptions.md R225] -/
def Obligations.NothingReadsIC : Prop :=
  ∀ (s : State) (n : Nat),
    (∀ t, step s = .next t → step (s.setIC n) = .next (t.setIC (n + 1))) ∧
    (∀ f, step s = .fault f → step (s.setIC n) = .fault f)

/-- Each instruction changes no flag outside its row of the flag write matrix. For every instruction and state, a flag that R38
does not mark for its mnemonic is the same after it. The rows of TSX and TXS are the spec's decision D7. [10_state.md R31,
10_state.md R34, 10_state.md R37, 10_state.md R38] -/
def Obligations.FlagWriteMatrix : Prop :=
  ∀ (i : Instr) (s t : State) (f : Flag), exec i s = .next t → f ∉ flagsWritten i.mnemonic → t.flag f = s.flag f

/-- Each instruction changes no register but its destination, and PC only by a branch, JMP or RTI. For every instruction and
state, A, X, Y and SP are unchanged unless they are the instruction's destination or SP of a stack instruction; PC, already
past the instruction, is unchanged unless it is a branch, JMP or RTI. No meaning changes IC: counting is the work of the
step around it (R42, R90; CompletedStepCountsOne). No meaning but BRK's changes the outcome record, which is the model's own
(log entry 2, DESIGN CHOICE). [10_state.md R22, 10_state.md R23, 10_state.md R24, 10_state.md R26, 10_state.md R28,
10_state.md R42, 40_engine.md R90] -/
def Obligations.RegisterWriteMatrix : Prop :=
  ∀ (i : Instr) (s t : State), exec i s = .next t →
    (∀ r, r ∉ regsWritten i → t.reg r = s.reg r) ∧ (setsPC i.mnemonic = false → t.pc = s.pc) ∧ t.ic = s.ic ∧
    (i ≠ .brk → t.outcome = s.outcome)

/-- Each instruction changes memory at its own address only. For every instruction and state, every byte of memory outside the
one address the instruction writes (its effective address, or the stack slot of a push) reads as before; an instruction that
writes none changes no byte. The list of accesses is that of the spec's decision D10. [20_memory.md R57, 41_load_store.md,
42_arith_incdec.md, 43_logic_shift.md, 45_flags_stack.md, 46_bits_control.md] -/
def Obligations.MemoryChangesOnlyWhereAccessed : Prop :=
  ∀ (i : Instr) (s t : State) (a : Addr),
    exec i s = .next t → Access.write a ∉ operationAccesses i s → t.byteAt a = s.byteAt a

/-- What an instruction does depends on memory only at the addresses it reads. If another memory agrees with the state's at
every address the instruction reads, the instruction gives the same registers, P, PC and IC over both, and the same byte
wherever it writes. [20_memory.md R57, 40_engine.md R95] -/
def Obligations.MeaningReadsOnlyWhereItAccesses : Prop :=
  ∀ (i : Instr) (s t : State) (m : Memory),
    (∀ a, Access.read a ∈ operationAccesses i s → (s.setMem m).byteAt a = s.byteAt a) → exec i s = .next t →
      ∃ t', exec i (s.setMem m) = .next t' ∧ (∀ r, t'.reg r = t.reg r) ∧ t'.p = t.p ∧ t'.pc = t.pc ∧ t'.ic = t.ic ∧
        ∀ a, Access.write a ∈ operationAccesses i s → t'.byteAt a = t.byteAt a

/-- I, D, B and U influence nothing but PHP. For every instruction but PHP, changing one of the flags I, D, B, U beforehand
changes neither a register, nor PC, nor a byte of memory, nor any other flag afterwards. For D in ADC and SBC this is the
spec's decision D5 (arithmetic is binary). [10_state.md R30, 10_state.md R33, 10_state.md R34, 60_exceptions.md R216,
92_eei_decisions.md D5] -/
def Obligations.StorageFlagsInfluenceNothing : Prop :=
  ∀ (i : Instr) (s t : State) (f : Flag) (b : Bool), i ≠ .php → f ∈ [Flag.i, .d, .b, .u] → exec i s = .next t →
    ∃ t', exec i (s.setFlag f b) = .next t' ∧ (∀ r, t'.reg r = t.reg r) ∧ t'.pc = t.pc ∧
      (∀ a, t'.byteAt a = t.byteAt a) ∧ ∀ g, g ≠ f → t'.flag g = t.flag g

/-- The trace callback fires once for each completed step and gives the instruction that ran and its resolved operand. A step
emits an observation if and only if it answers a next state; the observation carries the mnemonic and the format of the
instruction the bytes at PC decode to, and its operand resolved in the state before the step: the byte of Immediate, the
effective address of the nine address modes, the target of a branch (PC + 2 + signed displacement, modulo 65536), nothing
for Implied and Accumulator. The content is the spec's decision D18. [60_exceptions.md R228, 92_eei_decisions.md D18,
44_compare_branch.md R163] -/
def Obligations.TraceObservesEveryCompletedStep : Prop :=
  ∀ s : State,
    ((∃ o, trace s = some o) ↔ ∃ t, step s = .next t) ∧
    (∀ o, trace s = some o →
      ∃ i rest, decode (bytesAtPC s) = .ok (i, rest) ∧ o.mnemonic = i.mnemonic ∧ o.format = i.format ∧
        o.operand =
          match i.operand with
          | .implied | .acc => .absent
          | .imm v => .value v
          | .mem m => .address (resolve m s)
          | .rel d => .address (BitVec.ofInt 16 ((s.pc.toNat : Int) + 2 + d.toInt)))

/-- A step's accesses: its own bytes in ascending order, then reads, then at most one write. The accesses of a step whose
instruction completes are the fetches of its bytes at ascending addresses from PC and then the operation's: reads, and after
them at most one write and no fetch. A step that ends in UnassignedOpcode has fetched its opcode byte alone, and one that
ends in AddressSpaceExhausted every byte from PC to 0xFFFF, that one included; neither accesses anything else. The order is
the spec's decision D10, the stops and their order its decisions D6 and D12. [20_memory.md R57, 20_memory.md R55,
40_engine.md R91, 40_engine.md R92, 60_exceptions.md R218, 92_eei_decisions.md D6, 92_eei_decisions.md D10,
92_eei_decisions.md D12] -/
def Obligations.AccessesComeInOrder : Prop :=
  (∀ (s : State) (i : Instr) (rest : List Byte),
    decode (bytesAtPC s) = .ok (i, rest) → i.wellFormedAt s.pc = true →
      ∃ (reads : List Addr) (writes : List Addr), writes.length ≤ 1 ∧
        accesses s = (List.range i.length).map (fun k => Access.fetch (s.pc + BitVec.ofNat 16 k)) ++
          (reads.map Access.read ++ writes.map Access.write)) ∧
  (∀ (s : State) (op : Byte) (a : Addr), step s = .fault (.unassignedOpcode op a) → accesses s = [.fetch s.pc]) ∧
  (∀ s : State, step s = .fault .addressSpaceExhausted →
    accesses s = (List.range (65536 - s.pc.toNat)).map (fun k => Access.fetch (s.pc + BitVec.ofNat 16 k)))

/-- The addresses of the six modes without a pointer. Zero Page is the operand byte; Zero Page,X and ,Y are (operand + index)
mod 256, so always in 0 to 255; Absolute is the operand word; Absolute,X and ,Y are (word + index) mod 65536. [40_engine.md
R97, 40_engine.md R98, 40_engine.md R99, 40_engine.md R100, 40_engine.md R101, 40_engine.md R102, 95_test_vectors.md I2] -/
def Obligations.ResolverComputesItsModes : Prop :=
  ∀ (s : State) (z : Byte) (w : Addr),
    (resolve (.zp z) s).toNat = z.toNat ∧
    (resolve (.zpx z) s).toNat = (z.toNat + s.x.toNat) % 256 ∧
    (resolve (.zpy z) s).toNat = (z.toNat + s.y.toNat) % 256 ∧
    (resolve (.abs w) s).toNat = w.toNat ∧
    (resolve (.absx w) s).toNat = (w.toNat + s.x.toNat) % 65536 ∧
    (resolve (.absy w) s).toNat = (w.toNat + s.y.toNat) % 65536

/-- The addresses of the three pointer modes. A zero-page pointer at p has its low byte at p and its high byte at (p + 1) mod
256 (decision D8). (Indirect,X) reads it at (operand + X) mod 256, (Indirect) at the operand, (Indirect),Y at the operand
and adds Y modulo 65536 (decision D21). [40_engine.md R95, 40_engine.md R103, 40_engine.md R104, 40_engine.md R105,
20_memory.md R55, 92_eei_decisions.md D8, 92_eei_decisions.md D21] -/
def Obligations.PointerModesReadLittleEndian : Prop :=
  ∀ (s : State) (z : Byte),
    let byteIn (p : Nat) : Nat := (s.byteAt (BitVec.ofNat 16 (p % 256))).toNat
    let pointer (p : Nat) : Nat := byteIn (p + 1) * 256 + byteIn p
    (resolve (.indx z) s).toNat = pointer (z.toNat + s.x.toNat) ∧
    (resolve (.indy z) s).toNat = (pointer z.toNat + s.y.toNat) % 65536 ∧
    (resolve (.zpi z) s).toNat = pointer z.toNat

/-- ADD8: the 9-bit sum, and V exactly when the signed sum does not fit. For every a, m and carry-in: the result byte and 256
times the carry out are a + m + cin, and V is 1 exactly when signed(a) + signed(m) + cin is outside -128 to 127 (the
function is the spec's decision D20). [40_engine.md R110, 40_engine.md R109, 92_eei_decisions.md D20] -/
def Obligations.AdderIsExact : Prop :=
  ∀ (a m : Byte) (cin : Bool),
    (add8 a m cin).1.toNat + 256 * (add8 a m cin).2.1.toNat = a.toNat + m.toNat + cin.toNat ∧
    (add8 a m cin).2.2 = outOfSignedRange (a.toInt + m.toInt + (cin.toNat : Int))

/-- SUB8: the adder of the complement, no borrow, and V exactly when the signed difference does not fit. For every a, m and
carry-in, SUB8(a, m, cin) is ADD8(a, m ^ 0xFF, cin); its carry out says that a is at least m plus the borrow, and V is 1
exactly when signed(a) - signed(m) - (1 - cin) is outside -128 to 127. [40_engine.md R111, 90_conflicts.md C8,
92_eei_decisions.md D20] -/
def Obligations.SubtractorIsAdderOfComplement : Prop :=
  ∀ (a m : Byte) (cin : Bool),
    sub8 a m cin = add8 a (m ^^^ 0xFF#8) cin ∧
    (sub8 a m cin).2.1 = decide (m.toNat + (1 - cin.toNat) ≤ a.toNat) ∧
    (sub8 a m cin).2.2 = outOfSignedRange (a.toInt - m.toInt - (1 - (cin.toNat : Int)))

/-- CMP8: the difference modulo 256 and the unsigned comparison. For every register and operand byte the result is (reg - m) mod
256, the carry says reg >= m as unsigned bytes, and the result is 0 exactly when they are equal; P is no input and V is not
produced (the function has neither). [R112] -/
def Obligations.CompareUnit : Prop :=
  ∀ reg m : Byte,
    (cmp8 reg m).1.toNat = (reg.toNat + 256 - m.toNat) % 256 ∧
    (cmp8 reg m).2 = decide (reg.toNat ≥ m.toNat) ∧ ((cmp8 reg m).1 = 0x00#8 ↔ reg = m)

/-- INC8 and DEC8 wrap modulo 256 and the instructions that use them leave C and V. INC8(v) = (v + 1) mod 256, DEC8(v) = (v - 1)
mod 256, and no form of INC, DEC, INX, INY, DEX, DEY changes C or V. [R113] -/
def Obligations.IncrementDecrementUnit : Prop :=
  (∀ v : Byte, (inc8 v).toNat = (v.toNat + 1) % 256 ∧ (dec8 v).toNat = (v.toNat + 255) % 256) ∧
  ∀ (i : Instr) (s t : State), i.mnemonic ∈ [Mnemonic.inc, .dec, .inx, .iny, .dex, .dey] → exec i s = .next t →
    t.flag .c = s.flag .c ∧ t.flag .v = s.flag .v

/-- The shifter: ASL8 and LSR8 shift by one bit, ROL8 and ROR8 rotate by one bit through the carry. ASL8(v) is (v * 2) mod 256
with carry bit 7 of v; LSR8(v) is v div 2, whose bit 7 is 0, with carry bit 0 of v; neither has the carry as an input. ROL8
is ((v * 2) mod 256) with the carry-in in bit 0 and carry bit 7 of v; ROR8 is (v div 2) with the carry-in in bit 7 and carry
bit 0 of v. [R115, R116] -/
def Obligations.ShiftAndRotateUnit : Prop :=
  ∀ (v : Byte) (cin : Bool),
    (asl8 v).1.toNat = v.toNat * 2 % 256 ∧ (asl8 v).2 = v.getLsbD 7 ∧
    (lsr8 v).1.toNat = v.toNat / 2 ∧ (lsr8 v).1.getLsbD 7 = false ∧ (lsr8 v).2 = v.getLsbD 0 ∧
    (rol8 v cin).1.toNat = v.toNat * 2 % 256 + cin.toNat ∧ (rol8 v cin).2 = v.getLsbD 7 ∧
    (ror8 v cin).1.toNat = v.toNat / 2 + 128 * cin.toNat ∧ (ror8 v cin).2 = v.getLsbD 0

/-- Nine successive rotates restore the byte and the carry, and the two rotates undo each other. Nine ROLs of a byte and carry
give them back; nine RORs do; and ROR after ROL gives back the byte and the carry. [43_logic_shift.md R155, 40_engine.md
R116] -/
def Obligations.NineRotatesRestore : Prop :=
  ∀ (v : Byte) (c : Bool),
    let rolPair (x : Byte × Bool) : Byte × Bool := rol8 x.1 x.2
    let rorPair (x : Byte × Bool) : Byte × Bool := ror8 x.1 x.2
    (Nat.repeat rolPair 9 (v, c)) = (v, c) ∧ (Nat.repeat rorPair 9 (v, c)) = (v, c) ∧ rorPair (rolPair (v, c)) = (v, c)

/-- Push stores at 0x0100 + SP and then decrements SP modulo 256. For every byte and state: the byte is at 0x0100 + SP, every
other byte of memory is as before, SP is (SP - 1) mod 256, and every other register, P, PC and IC are unchanged; the address
is in the stack page. [R118] -/
def Obligations.PushStoresThenDecrements : Prop :=
  ∀ (b : Byte) (s : State),
    (stackAddr s.sp).toNat = 0x0100 + s.sp.toNat ∧ (push b s).byteAt (stackAddr s.sp) = b ∧
    (∀ a, a ≠ stackAddr s.sp → (push b s).byteAt a = s.byteAt a) ∧ (push b s).sp.toNat = (s.sp.toNat + 255) % 256 ∧
    (∀ r, r ≠ .sp → (push b s).reg r = s.reg r) ∧ (push b s).p = s.p ∧ (push b s).pc = s.pc ∧ (push b s).ic = s.ic

/-- Pull increments SP modulo 256 and then loads from 0x0100 + SP. For every state: SP becomes (SP + 1) mod 256, the byte pulled
is the one at 0x0100 + that, no byte of memory changes (the slot is not erased), and every other register, P, PC and IC are
unchanged. [R119] -/
def Obligations.PullIncrementsThenLoads : Prop :=
  ∀ s : State,
    (pull s).2.sp.toNat = (s.sp.toNat + 1) % 256 ∧
    (pull s).1 = s.byteAt (BitVec.ofNat 16 (0x0100 + (s.sp.toNat + 1) % 256)) ∧
    (∀ a, (pull s).2.byteAt a = s.byteAt a) ∧ (∀ r, r ≠ .sp → (pull s).2.reg r = s.reg r) ∧
    (pull s).2.p = s.p ∧ (pull s).2.pc = s.pc ∧ (pull s).2.ic = s.ic

/-- N pushes and then N pulls give the bytes back in reverse order and SP as it was. For every list of at most 256 bytes and
every state, whatever SP is: pushing the bytes and then pulling as many gives them in reverse order, SP is back, and every
register, P and PC are as before; memory outside the stack page is untouched. [40_engine.md R121, 95_test_vectors.md I3] -/
def Obligations.PulledBytesArePushedBytesReversed : Prop :=
  ∀ (bs : List Byte) (s : State), bs.length ≤ 256 →
    (pullMany bs.length (pushAll bs s)).1 = bs.reverse ∧
    (∀ r, (pullMany bs.length (pushAll bs s)).2.reg r = s.reg r) ∧
    (pullMany bs.length (pushAll bs s)).2.p = s.p ∧ (pullMany bs.length (pushAll bs s)).2.pc = s.pc ∧
    ∀ a : Addr, (a.toNat < 0x0100 ∨ 0x01FF < a.toNat) →
      (pullMany bs.length (pushAll bs s)).2.byteAt a = s.byteAt a

/-- LDA, all nine forms. Each form of LDA completes: A receives the operand (the immediate byte, or the byte at the address the
mode resolves to), Z and N follow it. Every other register, flag and byte of memory, PC, IC and the outcome record are
unchanged. [R130] -/
def Obligations.LdaLoadsTheAccumulator : Prop :=
  ∀ (s : State) (v : Byte) (z : Byte) (w : Addr),
    Runs [0xA9#8, v] (.ldaImm v) (loads .a v) s ∧
    Runs [0xA5#8, z] (.ldaZp z) (loads .a (s.byteAt (resolve (.zp z) s))) s ∧
    Runs [0xB5#8, z] (.ldaZpx z) (loads .a (s.byteAt (resolve (.zpx z) s))) s ∧
    Runs [0xAD#8, lowByte w, highByte w] (.ldaAbs w) (loads .a (s.byteAt (resolve (.abs w) s))) s ∧
    Runs [0xBD#8, lowByte w, highByte w] (.ldaAbsx w) (loads .a (s.byteAt (resolve (.absx w) s))) s ∧
    Runs [0xB9#8, lowByte w, highByte w] (.ldaAbsy w) (loads .a (s.byteAt (resolve (.absy w) s))) s ∧
    Runs [0xA1#8, z] (.ldaIndx z) (loads .a (s.byteAt (resolve (.indx z) s))) s ∧
    Runs [0xB1#8, z] (.ldaIndy z) (loads .a (s.byteAt (resolve (.indy z) s))) s ∧
    Runs [0xB2#8, z] (.ldaZpi z) (loads .a (s.byteAt (resolve (.zpi z) s))) s

/-- LDX and LDY, all ten forms. Each form of LDX and LDY completes: X or Y receives the operand, Z and N follow it. LDX is
indexed by Y, LDY by X. Every other register, flag and byte of memory, PC, IC and the outcome record are unchanged. [R131,
R132] -/
def Obligations.LdxAndLdyLoadTheIndexes : Prop :=
  ∀ (s : State) (v : Byte) (z : Byte) (w : Addr),
    Runs [0xA2#8, v] (.ldxImm v) (loads .x v) s ∧
    Runs [0xA6#8, z] (.ldxZp z) (loads .x (s.byteAt (resolve (.zp z) s))) s ∧
    Runs [0xB6#8, z] (.ldxZpy z) (loads .x (s.byteAt (resolve (.zpy z) s))) s ∧
    Runs [0xAE#8, lowByte w, highByte w] (.ldxAbs w) (loads .x (s.byteAt (resolve (.abs w) s))) s ∧
    Runs [0xBE#8, lowByte w, highByte w] (.ldxAbsy w) (loads .x (s.byteAt (resolve (.absy w) s))) s ∧
    Runs [0xA0#8, v] (.ldyImm v) (loads .y v) s ∧
    Runs [0xA4#8, z] (.ldyZp z) (loads .y (s.byteAt (resolve (.zp z) s))) s ∧
    Runs [0xB4#8, z] (.ldyZpx z) (loads .y (s.byteAt (resolve (.zpx z) s))) s ∧
    Runs [0xAC#8, lowByte w, highByte w] (.ldyAbs w) (loads .y (s.byteAt (resolve (.abs w) s))) s ∧
    Runs [0xBC#8, lowByte w, highByte w] (.ldyAbsx w) (loads .y (s.byteAt (resolve (.absx w) s))) s

/-- STA, all eight forms. Each form of STA completes: the byte at the resolved address is A. Every other register, flag and byte
of memory, PC, IC and the outcome record are unchanged. [R133] -/
def Obligations.StaStoresTheAccumulator : Prop :=
  ∀ (s : State) (z : Byte) (w : Addr),
    Runs [0x85#8, z] (.staZp z) (stores (resolve (.zp z) s) s.a) s ∧
    Runs [0x95#8, z] (.staZpx z) (stores (resolve (.zpx z) s) s.a) s ∧
    Runs [0x8D#8, lowByte w, highByte w] (.staAbs w) (stores (resolve (.abs w) s) s.a) s ∧
    Runs [0x9D#8, lowByte w, highByte w] (.staAbsx w) (stores (resolve (.absx w) s) s.a) s ∧
    Runs [0x99#8, lowByte w, highByte w] (.staAbsy w) (stores (resolve (.absy w) s) s.a) s ∧
    Runs [0x81#8, z] (.staIndx z) (stores (resolve (.indx z) s) s.a) s ∧
    Runs [0x91#8, z] (.staIndy z) (stores (resolve (.indy z) s) s.a) s ∧
    Runs [0x92#8, z] (.staZpi z) (stores (resolve (.zpi z) s) s.a) s

/-- STX, STY and STZ, all ten forms. Each form of STX, STY and STZ completes: the byte at the resolved address is X, Y or 0. No
flag is written, not even Z by STZ. Every other register, flag and byte of memory, PC, IC and the outcome record are
unchanged. [R134, R135, R136] -/
def Obligations.StxStyStzStore : Prop :=
  ∀ (s : State) (z : Byte) (w : Addr),
    Runs [0x86#8, z] (.stxZp z) (stores (resolve (.zp z) s) s.x) s ∧
    Runs [0x96#8, z] (.stxZpy z) (stores (resolve (.zpy z) s) s.x) s ∧
    Runs [0x8E#8, lowByte w, highByte w] (.stxAbs w) (stores (resolve (.abs w) s) s.x) s ∧
    Runs [0x84#8, z] (.styZp z) (stores (resolve (.zp z) s) s.y) s ∧
    Runs [0x94#8, z] (.styZpx z) (stores (resolve (.zpx z) s) s.y) s ∧
    Runs [0x8C#8, lowByte w, highByte w] (.styAbs w) (stores (resolve (.abs w) s) s.y) s ∧
    Runs [0x64#8, z] (.stzZp z) (stores (resolve (.zp z) s) 0x00#8) s ∧
    Runs [0x74#8, z] (.stzZpx z) (stores (resolve (.zpx z) s) 0x00#8) s ∧
    Runs [0x9C#8, lowByte w, highByte w] (.stzAbs w) (stores (resolve (.abs w) s) 0x00#8) s ∧
    Runs [0x9E#8, lowByte w, highByte w] (.stzAbsx w) (stores (resolve (.absx w) s) 0x00#8) s

/-- ADC, all nine forms. Each form of ADC completes: A receives the low 8 bits of A + operand + C, C says that the sum exceeds
255, V that the signed sum does not fit in 8 bits (decision D20), Z and N follow the result; D plays no part (decision D5).
Every other register, flag and byte of memory, PC, IC and the outcome record are unchanged. [42_arith_incdec.md R140,
40_engine.md R110, 92_eei_decisions.md D5, 92_eei_decisions.md D20] -/
def Obligations.AdcAddsWithCarry : Prop :=
  ∀ (s : State) (v : Byte) (z : Byte) (w : Addr),
    Runs [0x69#8, v] (.adcImm v) (adds s v) s ∧
    Runs [0x65#8, z] (.adcZp z) (adds s (s.byteAt (resolve (.zp z) s))) s ∧
    Runs [0x75#8, z] (.adcZpx z) (adds s (s.byteAt (resolve (.zpx z) s))) s ∧
    Runs [0x6D#8, lowByte w, highByte w] (.adcAbs w) (adds s (s.byteAt (resolve (.abs w) s))) s ∧
    Runs [0x7D#8, lowByte w, highByte w] (.adcAbsx w) (adds s (s.byteAt (resolve (.absx w) s))) s ∧
    Runs [0x79#8, lowByte w, highByte w] (.adcAbsy w) (adds s (s.byteAt (resolve (.absy w) s))) s ∧
    Runs [0x61#8, z] (.adcIndx z) (adds s (s.byteAt (resolve (.indx z) s))) s ∧
    Runs [0x71#8, z] (.adcIndy z) (adds s (s.byteAt (resolve (.indy z) s))) s ∧
    Runs [0x72#8, z] (.adcZpi z) (adds s (s.byteAt (resolve (.zpi z) s))) s

/-- SBC, all nine forms. Each form of SBC completes: A receives A - operand - (1 - C) modulo 256, C says that this is not
negative, V that the signed difference does not fit in 8 bits (decision D20), Z and N follow the result; D plays no part
(decision D5). Every other register, flag and byte of memory, PC, IC and the outcome record are unchanged.
[42_arith_incdec.md R141, 40_engine.md R111, 90_conflicts.md C8, 92_eei_decisions.md D5, 92_eei_decisions.md D20] -/
def Obligations.SbcSubtractsWithBorrow : Prop :=
  ∀ (s : State) (v : Byte) (z : Byte) (w : Addr),
    Runs [0xE9#8, v] (.sbcImm v) (subtracts s v) s ∧
    Runs [0xE5#8, z] (.sbcZp z) (subtracts s (s.byteAt (resolve (.zp z) s))) s ∧
    Runs [0xF5#8, z] (.sbcZpx z) (subtracts s (s.byteAt (resolve (.zpx z) s))) s ∧
    Runs [0xED#8, lowByte w, highByte w] (.sbcAbs w) (subtracts s (s.byteAt (resolve (.abs w) s))) s ∧
    Runs [0xFD#8, lowByte w, highByte w] (.sbcAbsx w) (subtracts s (s.byteAt (resolve (.absx w) s))) s ∧
    Runs [0xF9#8, lowByte w, highByte w] (.sbcAbsy w) (subtracts s (s.byteAt (resolve (.absy w) s))) s ∧
    Runs [0xE1#8, z] (.sbcIndx z) (subtracts s (s.byteAt (resolve (.indx z) s))) s ∧
    Runs [0xF1#8, z] (.sbcIndy z) (subtracts s (s.byteAt (resolve (.indy z) s))) s ∧
    Runs [0xF2#8, z] (.sbcZpi z) (subtracts s (s.byteAt (resolve (.zpi z) s))) s

/-- INC, DEC, INX, INY, DEX and DEY, all twelve forms. Each form of INC and DEC, and INX, INY, DEX and DEY, completes: the byte
at the resolved address, or X or Y, becomes itself plus or minus 1 modulo 256, Z and N follow it. Every other register, flag
and byte of memory, PC, IC and the outcome record are unchanged. [R142, R143, R144, R145, R146, R147] -/
def Obligations.IncrementsAndDecrements : Prop :=
  ∀ (s : State) (z : Byte) (w : Addr),
    Runs [0xE6#8, z] (.incZp z) (modifies (resolve (.zp z) s) (mod256 ((s.byteAt (resolve (.zp z) s)).toNat + 1))) s ∧
    Runs [0xF6#8, z] (.incZpx z) (modifies (resolve (.zpx z) s) (mod256 ((s.byteAt (resolve (.zpx z) s)).toNat + 1))) s ∧
    Runs [0xEE#8, lowByte w, highByte w] (.incAbs w) (modifies (resolve (.abs w) s) (mod256 ((s.byteAt (resolve (.abs w) s)).toNat + 1))) s ∧
    Runs [0xFE#8, lowByte w, highByte w] (.incAbsx w) (modifies (resolve (.absx w) s) (mod256 ((s.byteAt (resolve (.absx w) s)).toNat + 1))) s ∧
    Runs [0xC6#8, z] (.decZp z) (modifies (resolve (.zp z) s) (mod256 ((s.byteAt (resolve (.zp z) s)).toNat + 255))) s ∧
    Runs [0xD6#8, z] (.decZpx z) (modifies (resolve (.zpx z) s) (mod256 ((s.byteAt (resolve (.zpx z) s)).toNat + 255))) s ∧
    Runs [0xCE#8, lowByte w, highByte w] (.decAbs w) (modifies (resolve (.abs w) s) (mod256 ((s.byteAt (resolve (.abs w) s)).toNat + 255))) s ∧
    Runs [0xDE#8, lowByte w, highByte w] (.decAbsx w) (modifies (resolve (.absx w) s) (mod256 ((s.byteAt (resolve (.absx w) s)).toNat + 255))) s ∧
    Runs [0xE8#8] .inx (loads .x (mod256 (s.x.toNat + 1))) s ∧
    Runs [0xC8#8] .iny (loads .y (mod256 (s.y.toNat + 1))) s ∧
    Runs [0xCA#8] .dex (loads .x (mod256 (s.x.toNat + 255))) s ∧
    Runs [0x88#8] .dey (loads .y (mod256 (s.y.toNat + 255))) s

/-- AND, ORA and EOR, all 27 forms. Each form of AND, ORA and EOR completes: A receives the bitwise combination of A and the
operand, Z and N follow it. Every other register, flag and byte of memory, PC, IC and the outcome record are unchanged.
[R150, R151, R152] -/
def Obligations.LogicCombinesIntoTheAccumulator : Prop :=
  ∀ (s : State) (v : Byte) (z : Byte) (w : Addr),
    Runs [0x29#8, v] (.andImm v) (loads .a (s.a &&& v)) s ∧
    Runs [0x25#8, z] (.andZp z) (loads .a (s.a &&& (s.byteAt (resolve (.zp z) s)))) s ∧
    Runs [0x35#8, z] (.andZpx z) (loads .a (s.a &&& (s.byteAt (resolve (.zpx z) s)))) s ∧
    Runs [0x2D#8, lowByte w, highByte w] (.andAbs w) (loads .a (s.a &&& (s.byteAt (resolve (.abs w) s)))) s ∧
    Runs [0x3D#8, lowByte w, highByte w] (.andAbsx w) (loads .a (s.a &&& (s.byteAt (resolve (.absx w) s)))) s ∧
    Runs [0x39#8, lowByte w, highByte w] (.andAbsy w) (loads .a (s.a &&& (s.byteAt (resolve (.absy w) s)))) s ∧
    Runs [0x21#8, z] (.andIndx z) (loads .a (s.a &&& (s.byteAt (resolve (.indx z) s)))) s ∧
    Runs [0x31#8, z] (.andIndy z) (loads .a (s.a &&& (s.byteAt (resolve (.indy z) s)))) s ∧
    Runs [0x32#8, z] (.andZpi z) (loads .a (s.a &&& (s.byteAt (resolve (.zpi z) s)))) s ∧
    Runs [0x09#8, v] (.oraImm v) (loads .a (s.a ||| v)) s ∧
    Runs [0x05#8, z] (.oraZp z) (loads .a (s.a ||| (s.byteAt (resolve (.zp z) s)))) s ∧
    Runs [0x15#8, z] (.oraZpx z) (loads .a (s.a ||| (s.byteAt (resolve (.zpx z) s)))) s ∧
    Runs [0x0D#8, lowByte w, highByte w] (.oraAbs w) (loads .a (s.a ||| (s.byteAt (resolve (.abs w) s)))) s ∧
    Runs [0x1D#8, lowByte w, highByte w] (.oraAbsx w) (loads .a (s.a ||| (s.byteAt (resolve (.absx w) s)))) s ∧
    Runs [0x19#8, lowByte w, highByte w] (.oraAbsy w) (loads .a (s.a ||| (s.byteAt (resolve (.absy w) s)))) s ∧
    Runs [0x01#8, z] (.oraIndx z) (loads .a (s.a ||| (s.byteAt (resolve (.indx z) s)))) s ∧
    Runs [0x11#8, z] (.oraIndy z) (loads .a (s.a ||| (s.byteAt (resolve (.indy z) s)))) s ∧
    Runs [0x12#8, z] (.oraZpi z) (loads .a (s.a ||| (s.byteAt (resolve (.zpi z) s)))) s ∧
    Runs [0x49#8, v] (.eorImm v) (loads .a (s.a ^^^ v)) s ∧
    Runs [0x45#8, z] (.eorZp z) (loads .a (s.a ^^^ (s.byteAt (resolve (.zp z) s)))) s ∧
    Runs [0x55#8, z] (.eorZpx z) (loads .a (s.a ^^^ (s.byteAt (resolve (.zpx z) s)))) s ∧
    Runs [0x4D#8, lowByte w, highByte w] (.eorAbs w) (loads .a (s.a ^^^ (s.byteAt (resolve (.abs w) s)))) s ∧
    Runs [0x5D#8, lowByte w, highByte w] (.eorAbsx w) (loads .a (s.a ^^^ (s.byteAt (resolve (.absx w) s)))) s ∧
    Runs [0x59#8, lowByte w, highByte w] (.eorAbsy w) (loads .a (s.a ^^^ (s.byteAt (resolve (.absy w) s)))) s ∧
    Runs [0x41#8, z] (.eorIndx z) (loads .a (s.a ^^^ (s.byteAt (resolve (.indx z) s)))) s ∧
    Runs [0x51#8, z] (.eorIndy z) (loads .a (s.a ^^^ (s.byteAt (resolve (.indy z) s)))) s ∧
    Runs [0x52#8, z] (.eorZpi z) (loads .a (s.a ^^^ (s.byteAt (resolve (.zpi z) s)))) s

/-- ASL and LSR, all ten forms. Each form of ASL and LSR completes: A, or the byte at the resolved address, is shifted by one
bit, C receives the bit shifted out, Z and N follow the result. Every other register, flag and byte of memory, PC, IC and
the outcome record are unchanged. [R153, R154] -/
def Obligations.AslAndLsrShift : Prop :=
  ∀ (s : State) (z : Byte) (w : Addr),
    Runs [0x0A#8] .aslAcc (loadsWithCarry .a (mod256 (s.a.toNat * 2)) (s.a.getLsbD 7)) s ∧
    Runs [0x06#8, z] (.aslZp z) (modifiesWithCarry (resolve (.zp z) s) (mod256 ((s.byteAt (resolve (.zp z) s)).toNat * 2)) ((s.byteAt (resolve (.zp z) s)).getLsbD 7)) s ∧
    Runs [0x16#8, z] (.aslZpx z) (modifiesWithCarry (resolve (.zpx z) s) (mod256 ((s.byteAt (resolve (.zpx z) s)).toNat * 2)) ((s.byteAt (resolve (.zpx z) s)).getLsbD 7)) s ∧
    Runs [0x0E#8, lowByte w, highByte w] (.aslAbs w) (modifiesWithCarry (resolve (.abs w) s) (mod256 ((s.byteAt (resolve (.abs w) s)).toNat * 2)) ((s.byteAt (resolve (.abs w) s)).getLsbD 7)) s ∧
    Runs [0x1E#8, lowByte w, highByte w] (.aslAbsx w) (modifiesWithCarry (resolve (.absx w) s) (mod256 ((s.byteAt (resolve (.absx w) s)).toNat * 2)) ((s.byteAt (resolve (.absx w) s)).getLsbD 7)) s ∧
    Runs [0x4A#8] .lsrAcc (loadsWithCarry .a (mod256 (s.a.toNat / 2)) (s.a.getLsbD 0)) s ∧
    Runs [0x46#8, z] (.lsrZp z) (modifiesWithCarry (resolve (.zp z) s) (mod256 ((s.byteAt (resolve (.zp z) s)).toNat / 2)) ((s.byteAt (resolve (.zp z) s)).getLsbD 0)) s ∧
    Runs [0x56#8, z] (.lsrZpx z) (modifiesWithCarry (resolve (.zpx z) s) (mod256 ((s.byteAt (resolve (.zpx z) s)).toNat / 2)) ((s.byteAt (resolve (.zpx z) s)).getLsbD 0)) s ∧
    Runs [0x4E#8, lowByte w, highByte w] (.lsrAbs w) (modifiesWithCarry (resolve (.abs w) s) (mod256 ((s.byteAt (resolve (.abs w) s)).toNat / 2)) ((s.byteAt (resolve (.abs w) s)).getLsbD 0)) s ∧
    Runs [0x5E#8, lowByte w, highByte w] (.lsrAbsx w) (modifiesWithCarry (resolve (.absx w) s) (mod256 ((s.byteAt (resolve (.absx w) s)).toNat / 2)) ((s.byteAt (resolve (.absx w) s)).getLsbD 0)) s

/-- ROL and ROR, all ten forms. Each form of ROL and ROR completes: A, or the byte at the resolved address, is rotated by one
bit through the carry found before the instruction, C receives the bit rotated out, Z and N follow the result. Every other
register, flag and byte of memory, PC, IC and the outcome record are unchanged. [R155, R156] -/
def Obligations.RolAndRorRotate : Prop :=
  ∀ (s : State) (z : Byte) (w : Addr),
    Runs [0x2A#8] .rolAcc (loadsWithCarry .a (mod256 (s.a.toNat * 2 + (s.flag .c).toNat)) (s.a.getLsbD 7)) s ∧
    Runs [0x26#8, z] (.rolZp z) (modifiesWithCarry (resolve (.zp z) s) (mod256 ((s.byteAt (resolve (.zp z) s)).toNat * 2 + (s.flag .c).toNat)) ((s.byteAt (resolve (.zp z) s)).getLsbD 7)) s ∧
    Runs [0x36#8, z] (.rolZpx z) (modifiesWithCarry (resolve (.zpx z) s) (mod256 ((s.byteAt (resolve (.zpx z) s)).toNat * 2 + (s.flag .c).toNat)) ((s.byteAt (resolve (.zpx z) s)).getLsbD 7)) s ∧
    Runs [0x2E#8, lowByte w, highByte w] (.rolAbs w) (modifiesWithCarry (resolve (.abs w) s) (mod256 ((s.byteAt (resolve (.abs w) s)).toNat * 2 + (s.flag .c).toNat)) ((s.byteAt (resolve (.abs w) s)).getLsbD 7)) s ∧
    Runs [0x3E#8, lowByte w, highByte w] (.rolAbsx w) (modifiesWithCarry (resolve (.absx w) s) (mod256 ((s.byteAt (resolve (.absx w) s)).toNat * 2 + (s.flag .c).toNat)) ((s.byteAt (resolve (.absx w) s)).getLsbD 7)) s ∧
    Runs [0x6A#8] .rorAcc (loadsWithCarry .a (mod256 (s.a.toNat / 2 + 128 * (s.flag .c).toNat)) (s.a.getLsbD 0)) s ∧
    Runs [0x66#8, z] (.rorZp z) (modifiesWithCarry (resolve (.zp z) s) (mod256 ((s.byteAt (resolve (.zp z) s)).toNat / 2 + 128 * (s.flag .c).toNat)) ((s.byteAt (resolve (.zp z) s)).getLsbD 0)) s ∧
    Runs [0x76#8, z] (.rorZpx z) (modifiesWithCarry (resolve (.zpx z) s) (mod256 ((s.byteAt (resolve (.zpx z) s)).toNat / 2 + 128 * (s.flag .c).toNat)) ((s.byteAt (resolve (.zpx z) s)).getLsbD 0)) s ∧
    Runs [0x6E#8, lowByte w, highByte w] (.rorAbs w) (modifiesWithCarry (resolve (.abs w) s) (mod256 ((s.byteAt (resolve (.abs w) s)).toNat / 2 + 128 * (s.flag .c).toNat)) ((s.byteAt (resolve (.abs w) s)).getLsbD 0)) s ∧
    Runs [0x7E#8, lowByte w, highByte w] (.rorAbsx w) (modifiesWithCarry (resolve (.absx w) s) (mod256 ((s.byteAt (resolve (.absx w) s)).toNat / 2 + 128 * (s.flag .c).toNat)) ((s.byteAt (resolve (.absx w) s)).getLsbD 0)) s

/-- CMP, CPX and CPY, all 15 forms. Each form of CMP, CPX and CPY completes: C says that the register is at least the operand as
unsigned bytes, Z and N follow their difference modulo 256; no register is written. Every other register, flag and byte of
memory, PC, IC and the outcome record are unchanged. [R160, R161, R162] -/
def Obligations.ComparesSetFlagsOnly : Prop :=
  ∀ (s : State) (v : Byte) (z : Byte) (w : Addr),
    Runs [0xC9#8, v] (.cmpImm v) (compares s.a v) s ∧
    Runs [0xC5#8, z] (.cmpZp z) (compares s.a (s.byteAt (resolve (.zp z) s))) s ∧
    Runs [0xD5#8, z] (.cmpZpx z) (compares s.a (s.byteAt (resolve (.zpx z) s))) s ∧
    Runs [0xCD#8, lowByte w, highByte w] (.cmpAbs w) (compares s.a (s.byteAt (resolve (.abs w) s))) s ∧
    Runs [0xDD#8, lowByte w, highByte w] (.cmpAbsx w) (compares s.a (s.byteAt (resolve (.absx w) s))) s ∧
    Runs [0xD9#8, lowByte w, highByte w] (.cmpAbsy w) (compares s.a (s.byteAt (resolve (.absy w) s))) s ∧
    Runs [0xC1#8, z] (.cmpIndx z) (compares s.a (s.byteAt (resolve (.indx z) s))) s ∧
    Runs [0xD1#8, z] (.cmpIndy z) (compares s.a (s.byteAt (resolve (.indy z) s))) s ∧
    Runs [0xD2#8, z] (.cmpZpi z) (compares s.a (s.byteAt (resolve (.zpi z) s))) s ∧
    Runs [0xE0#8, v] (.cpxImm v) (compares s.x v) s ∧
    Runs [0xE4#8, z] (.cpxZp z) (compares s.x (s.byteAt (resolve (.zp z) s))) s ∧
    Runs [0xEC#8, lowByte w, highByte w] (.cpxAbs w) (compares s.x (s.byteAt (resolve (.abs w) s))) s ∧
    Runs [0xC0#8, v] (.cpyImm v) (compares s.y v) s ∧
    Runs [0xC4#8, z] (.cpyZp z) (compares s.y (s.byteAt (resolve (.zp z) s))) s ∧
    Runs [0xCC#8, lowByte w, highByte w] (.cpyAbs w) (compares s.y (s.byteAt (resolve (.abs w) s))) s

/-- The nine branches. Each branch completes: if its condition holds (BCC C=0, BCS C=1, BEQ Z=1, BNE Z=0, BMI N=1, BPL N=0, BVC
V=0, BVS V=1, BRA always) PC, which is past the displacement byte, becomes PC plus the signed displacement modulo 65536;
otherwise PC stays. Every other register, flag and byte of memory, PC, IC and the outcome record are unchanged. [R164, R165,
R166, R167, R168, R169, R170, R171, R172] -/
def Obligations.BranchesTestTheirCondition : Prop :=
  ∀ (s : State) (d : Byte),
    Runs [0x90#8, d] (.bcc d) (jumpsBy s (!s.flag .c) d) s ∧
    Runs [0xB0#8, d] (.bcs d) (jumpsBy s (s.flag .c) d) s ∧
    Runs [0xF0#8, d] (.beq d) (jumpsBy s (s.flag .z) d) s ∧
    Runs [0xD0#8, d] (.bne d) (jumpsBy s (!s.flag .z) d) s ∧
    Runs [0x30#8, d] (.bmi d) (jumpsBy s (s.flag .n) d) s ∧
    Runs [0x10#8, d] (.bpl d) (jumpsBy s (!s.flag .n) d) s ∧
    Runs [0x50#8, d] (.bvc d) (jumpsBy s (!s.flag .v) d) s ∧
    Runs [0x70#8, d] (.bvs d) (jumpsBy s (s.flag .v) d) s ∧
    Runs [0x80#8, d] (.bra d) (jumpsBy s true d) s

/-- A branch step goes to a + 2 plus the displacement, or to a + 2. When the byte at a = PC is a branch's opcode and its
displacement byte lies below 0xFFFF, the step completes; PC is (a + 2 + d) mod 65536 with d read as signed if the condition
holds, and a + 2 if not; no flag, register or byte of memory is written. [R163] -/
def Obligations.BranchStepFromItsOpcodeAddress : Prop :=
  ∀ (s : State) (i : Instr) (taken : Bool), s.pc.toNat + 2 ≤ 65535 →
    let d := s.byteAt (s.pc + 1#16)
    (∃ rest, decode (bytesAtPC s) = .ok (i, rest)) →
    ((i = .bcc d ∧ taken = !s.flag .c) ∨ (i = .bcs d ∧ taken = s.flag .c) ∨ (i = .beq d ∧ taken = s.flag .z) ∨
      (i = .bne d ∧ taken = !s.flag .z) ∨ (i = .bmi d ∧ taken = s.flag .n) ∨ (i = .bpl d ∧ taken = !s.flag .n) ∨
      (i = .bvc d ∧ taken = !s.flag .v) ∨ (i = .bvs d ∧ taken = s.flag .v) ∨ (i = .bra d ∧ taken = true)) →
    ∃ t, step s = .next t ∧
      t.pc = (if taken then BitVec.ofInt 16 ((s.pc.toNat : Int) + 2 + d.toInt) else s.pc + 2#16) ∧
      (∀ r, t.reg r = s.reg r) ∧ t.p = s.p ∧ t.mem = s.mem

/-- An assembled branch reaches its label. The displacement byte an assembler stores for a branch at address a to a label takes
a branch, whose PC is a + 2 when it runs, to the label; it is refused exactly when the label is farther than -128 to +127
from a + 2. That the distance is the difference of the two addresses as numbers, not wrapped modulo 65536, is the model's
(log entry 15, DEDUCED). [30_encoding.md R83, 44_compare_branch.md R163] -/
def Obligations.AssembledBranchReachesItsLabel : Prop :=
  ∀ (s : State) (target a : Addr),
    (∀ d, assembleRel target a = some d → branchTarget d (s.setPC (a + 2#16)) = target) ∧
    (assembleRel target a = none ↔
      ((target.toNat : Int) - (a.toNat + 2) < -128 ∨ 127 < (target.toNat : Int) - (a.toNat + 2)))

/-- CLC, SEC, CLD, SED, CLI, SEI and CLV. Each of CLC, SEC, CLD, SED, CLI, SEI and CLV completes and sets or clears exactly its
one bit of P. Every other register, flag and byte of memory, PC, IC and the outcome record are unchanged. [R180, R181, R182,
R183, R184, R185, R186] -/
def Obligations.FlagInstructionsWriteOneBit : Prop :=
  ∀ (s : State),
    Runs [0x18#8] .clc ({ flags := [(.c, false)] }) s ∧
    Runs [0x38#8] .sec ({ flags := [(.c, true)] }) s ∧
    Runs [0xD8#8] .cld ({ flags := [(.d, false)] }) s ∧
    Runs [0xF8#8] .sed ({ flags := [(.d, true)] }) s ∧
    Runs [0x58#8] .cli ({ flags := [(.i, false)] }) s ∧
    Runs [0x78#8] .sei ({ flags := [(.i, true)] }) s ∧
    Runs [0xB8#8] .clv ({ flags := [(.v, false)] }) s

/-- PHA, PHP, PHX and PHY. PHA, PHX and PHY push their register and PHP pushes P with bits 4 and 5 forced to 1: the byte is
stored at 0x0100 + SP and SP is decremented modulo 256. P itself is unchanged. Every other register, flag and byte of
memory, PC, IC and the outcome record are unchanged. [R187, R188, R189, R190] -/
def Obligations.PushInstructions : Prop :=
  ∀ (s : State),
    Runs [0x48#8] .pha (pushes s s.a) s ∧
    Runs [0x08#8] .php (pushes s (s.p ||| 0x30#8)) s ∧
    Runs [0xDA#8] .phx (pushes s s.x) s ∧
    Runs [0x5A#8] .phy (pushes s s.y) s

/-- PLA, PLX and PLY. PLA, PLX and PLY complete: SP is incremented modulo 256, the register receives the byte at 0x0100 + SP, Z
and N follow it. Every other register, flag and byte of memory, PC, IC and the outcome record are unchanged. [R191, R193,
R194] -/
def Obligations.PullInstructions : Prop :=
  ∀ (s : State),
    Runs [0x68#8] .pla (pullsTo s .a) s ∧
    Runs [0xFA#8] .plx (pullsTo s .x) s ∧
    Runs [0x7A#8] .ply (pullsTo s .y) s

/-- PLP. PLP completes: SP is incremented modulo 256 and all eight bits of P, B and U included, are those of the byte at 0x0100
+ SP. Every other register, flag and byte of memory, PC, IC and the outcome record are unchanged. [R192] -/
def Obligations.PlpRestoresPRaw : Prop :=
  ∀ (s : State),
    Runs [0x28#8] .plp ({ regs := [(.sp, spAfter s 1)], flags := allFlags (pulled s 1) }) s

/-- TSX and TXS. TSX completes: X receives SP and Z and N follow it. TXS completes: SP receives X and no flag is written. The
split of the flags is the spec's decision D7. Every other register, flag and byte of memory, PC, IC and the outcome record
are unchanged. [45_flags_stack.md R195, 45_flags_stack.md R196, 92_eei_decisions.md D7] -/
def Obligations.TsxAndTxsTransfer : Prop :=
  ∀ (s : State),
    Runs [0xBA#8] .tsx (loads .x s.sp) s ∧
    Runs [0x9A#8] .txs ({ regs := [(.sp, s.x)] }) s

/-- TSB and TRB, all four forms. Each form of TSB and TRB completes: the byte m at the resolved address becomes m | A or m & (A
^ 0xFF), and Z and N follow the byte stored; A is unchanged. Every other register, flag and byte of memory, PC, IC and the
outcome record are unchanged. [R200, R201] -/
def Obligations.TsbAndTrbModifyBits : Prop :=
  ∀ (s : State) (z : Byte) (w : Addr),
    Runs [0x04#8, z] (.tsbZp z) (modifies (resolve (.zp z) s) ((s.byteAt (resolve (.zp z) s)) ||| s.a)) s ∧
    Runs [0x0C#8, lowByte w, highByte w] (.tsbAbs w) (modifies (resolve (.abs w) s) ((s.byteAt (resolve (.abs w) s)) ||| s.a)) s ∧
    Runs [0x14#8, z] (.trbZp z) (modifies (resolve (.zp z) s) ((s.byteAt (resolve (.zp z) s)) &&& ~~~ s.a)) s ∧
    Runs [0x1C#8, lowByte w, highByte w] (.trbAbs w) (modifies (resolve (.abs w) s) ((s.byteAt (resolve (.abs w) s)) &&& ~~~ s.a)) s

/-- JMP and NOP. JMP completes with PC the full 16-bit operand word and nothing else changed; NOP completes and changes nothing.
Every other register, flag and byte of memory, PC, IC and the outcome record are unchanged. [R202, R204] -/
def Obligations.JmpAndNop : Prop :=
  ∀ (s : State) (w : Addr),
    Runs [0x4C#8, lowByte w, highByte w] (.jmp w) ({ pc := some w }) s ∧
    Runs [0xEA#8] .nop ({}) s

/-- BRK. BRK completes, and its meaning writes the record of the outcome, which says halt (the record is the model's, log entry
2, DESIGN CHOICE), and nothing else: every register, flag and byte of memory is as before, and PC, already one past the
byte, stays (decision D13). The step around the meaning counts BRK in IC, as it does every instruction (R90, decision D4);
HaltIsExactlyAFetchedZeroByte (O10) and CompletedStepCountsOne (O18) state that. [46_bits_control.md R203, 40_engine.md R90,
40_engine.md R93, 92_eei_decisions.md D4, 92_eei_decisions.md D13] -/
def Obligations.BrkHalts : Prop :=
  ∀ (s : State),
    Runs [0x00#8] .brk ({ outcome := some .halt }) s

/-- RTI. RTI completes: all eight bits of P are those of the first byte pulled, PC is the word whose low byte is the second byte
pulled and whose high byte is the third, and SP is three further modulo 256. The order of the PC bytes is the spec's
decision D15. Every other register, flag and byte of memory, PC, IC and the outcome record are unchanged.
[46_bits_control.md R205, 60_exceptions.md R221, 92_eei_decisions.md D15] -/
def Obligations.RtiPullsStatusThenPC : Prop :=
  ∀ (s : State),
    Runs [0x40#8] .rti ({ regs := [(.sp, spAfter s 3)], flags := allFlags (pulled s 1), pc := some (mod65536 ((pulled s 3).toNat * 256 + (pulled s 2).toNat)) }) s
end

