-- ==== Sys2Proof/Laws/Decode.lean ====
section
/-! SUPPORT. A word and its bytes. Then the dispatch table row by row: whatever operand bytes a handler of the table is given,
the instruction it makes has the opcode byte the handler stands at, the handler's length and those operand bytes. -/

namespace Sys2Proof.Laws

/-- A word, and its bytes (R55, R73). -/
theorem joinBytes_toNat (hi lo : Byte) : (joinBytes hi lo).toNat = hi.toNat * 256 + lo.toNat := by
  simp only [joinBytes, BitVec.toNat_append]
  rw [← Nat.shiftLeft_add_eq_or_of_lt lo.isLt, Nat.shiftLeft_eq]

theorem lowByte_toNat (w : Addr) : (lowByte w).toNat = w.toNat % 256 := by simp [lowByte]
theorem highByte_toNat (w : Addr) : (highByte w).toNat = w.toNat / 256 := by
  have := w.isLt
  simp [highByte, Nat.shiftRight_eq_div_pow]
  omega

@[simp] theorem lowByte_joinBytes (hi lo : Byte) : lowByte (joinBytes hi lo) = lo := by
  apply BitVec.eq_of_toNat_eq
  have := lo.isLt
  rw [lowByte_toNat, joinBytes_toNat]
  omega
@[simp] theorem highByte_joinBytes (hi lo : Byte) : highByte (joinBytes hi lo) = hi := by
  apply BitVec.eq_of_toNat_eq
  have := lo.isLt
  rw [highByte_toNat, joinBytes_toNat]
  omega
@[simp] theorem joinBytes_bytes (w : Addr) : joinBytes (highByte w) (lowByte w) = w := by
  apply BitVec.eq_of_toNat_eq
  rw [joinBytes_toNat, highByte_toNat, lowByte_toNat]
  omega

/-- What is right about a handler that stands at the opcode byte `op`. -/
def Sound (op : Byte) : Handler → Prop
  | .noOperand i => i.opcode = op ∧ i.length = 1 ∧ i.operand.bytes = []
  | .oneByte f => ∀ b, (f b).opcode = op ∧ (f b).length = 2 ∧ (f b).operand.bytes = [b]
  | .twoBytes f => ∀ w, (f w).opcode = op ∧ (f w).length = 3 ∧ (f w).operand.bytes = wordBytes w

/-- Every handler of a piece of the table is right, the piece beginning at opcode byte `n`. -/
def SoundFrom (n : Nat) : List (Option Handler) → Prop
  | [] => True
  | none :: rest => SoundFrom (n + 1) rest
  | some h :: rest => Sound (BitVec.ofNat 8 n) h ∧ SoundFrom (n + 1) rest

theorem soundFrom_getD {l : List (Option Handler)} {n k : Nat} {h : Handler} (hs : SoundFrom n l)
    (hk : l.getD k none = some h) : Sound (BitVec.ofNat 8 (n + k)) h := by
  induction l generalizing n k with
  | nil => simp at hk
  | cons o rest ih =>
    have htail : SoundFrom (n + 1) rest := by
      cases o with
      | none => exact hs
      | some g => exact hs.2
    cases k with
    | zero =>
      simp only [List.getD_cons_zero] at hk
      subst hk
      exact hs.1
    | succ k =>
      rw [List.getD_cons_succ] at hk
      have := ih htail hk
      rwa [Nat.add_right_comm, Nat.add_assoc] at this

theorem row0_sound : SoundFrom 0x00 row0 := by
  repeat' first | exact True.intro | exact rfl | apply And.intro | intro _
theorem row1_sound : SoundFrom 0x10 row1 := by
  repeat' first | exact True.intro | exact rfl | apply And.intro | intro _
theorem row2_sound : SoundFrom 0x20 row2 := by
  repeat' first | exact True.intro | exact rfl | apply And.intro | intro _
theorem row3_sound : SoundFrom 0x30 row3 := by
  repeat' first | exact True.intro | exact rfl | apply And.intro | intro _
theorem row4_sound : SoundFrom 0x40 row4 := by
  repeat' first | exact True.intro | exact rfl | apply And.intro | intro _
theorem row5_sound : SoundFrom 0x50 row5 := by
  repeat' first | exact True.intro | exact rfl | apply And.intro | intro _
theorem row6_sound : SoundFrom 0x60 row6 := by
  repeat' first | exact True.intro | exact rfl | apply And.intro | intro _
theorem row7_sound : SoundFrom 0x70 row7 := by
  repeat' first | exact True.intro | exact rfl | apply And.intro | intro _
theorem row8_sound : SoundFrom 0x80 row8 := by
  repeat' first | exact True.intro | exact rfl | apply And.intro | intro _
theorem row9_sound : SoundFrom 0x90 row9 := by
  repeat' first | exact True.intro | exact rfl | apply And.intro | intro _
theorem rowA_sound : SoundFrom 0xA0 rowA := by
  repeat' first | exact True.intro | exact rfl | apply And.intro | intro _
theorem rowB_sound : SoundFrom 0xB0 rowB := by
  repeat' first | exact True.intro | exact rfl | apply And.intro | intro _
theorem rowC_sound : SoundFrom 0xC0 rowC := by
  repeat' first | exact True.intro | exact rfl | apply And.intro | intro _
theorem rowD_sound : SoundFrom 0xD0 rowD := by
  repeat' first | exact True.intro | exact rfl | apply And.intro | intro _
theorem rowE_sound : SoundFrom 0xE0 rowE := by
  repeat' first | exact True.intro | exact rfl | apply And.intro | intro _
theorem rowF_sound : SoundFrom 0xF0 rowF := by
  repeat' first | exact True.intro | exact rfl | apply And.intro | intro _

/-- The table: the handler of an opcode byte is right for it. -/
theorem handlerOf_sound {op : Byte} {h : Handler} (hh : handlerOf op = some h) : Sound op h := by
  have hlt := op.isLt
  have key : ∀ n row, SoundFrom (16 * n) row → op.toNat / 16 = n → row.getD (op.toNat % 16) none = some h → Sound op h := by
    intro n row hs hn hg
    have := soundFrom_getD hs hg
    have e : 16 * n + op.toNat % 16 = op.toNat := by omega
    rwa [e, BitVec.ofNat_toNat, BitVec.setWidth_eq] at this
  unfold handlerOf at hh
  have hcase : op.toNat / 16 < 16 := by omega
  generalize hq : op.toNat / 16 = q at hh hcase key
  match q, hcase with
  | 0, _ => exact key 0 row0 row0_sound rfl hh
  | 1, _ => exact key 1 row1 row1_sound rfl hh
  | 2, _ => exact key 2 row2 row2_sound rfl hh
  | 3, _ => exact key 3 row3 row3_sound rfl hh
  | 4, _ => exact key 4 row4 row4_sound rfl hh
  | 5, _ => exact key 5 row5 row5_sound rfl hh
  | 6, _ => exact key 6 row6 row6_sound rfl hh
  | 7, _ => exact key 7 row7 row7_sound rfl hh
  | 8, _ => exact key 8 row8 row8_sound rfl hh
  | 9, _ => exact key 9 row9 row9_sound rfl hh
  | 10, _ => exact key 10 rowA rowA_sound rfl hh
  | 11, _ => exact key 11 rowB rowB_sound rfl hh
  | 12, _ => exact key 12 rowC rowC_sound rfl hh
  | 13, _ => exact key 13 rowD rowD_sound rfl hh
  | 14, _ => exact key 14 rowE rowE_sound rfl hh
  | 15, _ => exact key 15 rowF rowF_sound rfl hh

end Sys2Proof.Laws
end

