-- ==== Sys2Proof/Laws/Flags.lean ====
section
/-! SUPPORT. P bit by bit: what each flag is after one flag, N and Z, or the whole byte is written. -/

namespace Sys2Proof.Laws

open Sys2Proof.Machine

@[simp] theorem getFlag_putFlag (p : Byte) (f g : Flag) (b : Bool) :
    getFlag (putFlag p f b) g = if g = f then b else getFlag p g := by
  cases f <;> cases g <;> cases b <;> simp [getFlag, putFlag, Flag.bit]

@[simp] theorem getFlag_putNZ (p r : Byte) (g : Flag) :
    getFlag (putNZ p r) g = if g = .n then r.msb else if g = .z then r == 0#8 else getFlag p g := by
  simp [putNZ]

/-- Two status bytes with the same flags are the same byte. -/
theorem status_ext {p q : Byte} (h : ∀ f, getFlag p f = getFlag q f) : p = q := by
  apply BitVec.eq_of_getLsbD_eq
  intro i hi
  match i, hi with
  | 0, _ => exact h .c
  | 1, _ => exact h .z
  | 2, _ => exact h .i
  | 3, _ => exact h .d
  | 4, _ => exact h .b
  | 5, _ => exact h .u
  | 6, _ => exact h .v
  | 7, _ => exact h .n

theorem getFlag_pushedStatus (p : Byte) (f : Flag) :
    getFlag (pushedStatus p) f = (getFlag p f || decide (f = .b) || decide (f = .u)) := by
  have h : ∀ n < 8, (0x30#8).getLsbD n = (n == 4 || n == 5) := by decide
  cases f <;> simp [getFlag, pushedStatus, Flag.bit]

theorem byte_eq_zero_iff (r : Byte) : (r == 0#8) = decide (r.toNat = 0) := by
  by_cases h : r = 0#8
  · simp [h]
  · have : r.toNat ≠ 0 := fun h0 => h (BitVec.eq_of_toNat_eq (by simpa using h0))
    simp [h, this]

theorem byte_msb (r : Byte) : r.msb = r.getLsbD 7 := by simp [BitVec.msb_eq_getLsbD_last]

@[simp] theorem setFlag_flag (s : State) (f g : Flag) (b : Bool) :
    (s.setFlag f b).flag g = if g = f then b else s.flag g := getFlag_putFlag s.p f g b

@[simp] theorem setNZ_flag (s : State) (r : Byte) (g : Flag) :
    (s.setNZ r).flag g = if g = .n then r.getLsbD 7 else if g = .z then decide (r.toNat = 0) else s.flag g := by
  rw [← byte_msb, ← byte_eq_zero_iff]
  exact getFlag_putNZ s.p r g

end Sys2Proof.Laws
end

