-- ==== Sys2Proof/Laws/Memory.lean ====
section
/-! SUPPORT. Memory: what a read after a write gives, that every memory operation keeps the canonical form, and that the form
is canonical. -/

namespace Sys2Proof.Laws

open Sys2Proof.Machine

/-! ## Reads after writes -/

theorem find_put (m : Memory) (a b : Nat) (v : Byte) :
    Memory.find (Memory.put m a v) b = if a = b then some v else Memory.find m b := by
  induction m with
  | nil => simp [Memory.put, Memory.find]
  | cons c rest ih =>
    obtain ⟨k, w⟩ := c
    simp only [Memory.put]
    split
    · simp [Memory.find]
    · split
      · subst_vars
        by_cases h : k = b <;> simp [Memory.find, h]
      · have hka : k ≠ a := fun h => by omega
        by_cases h : k = b
        · subst h
          simp [Memory.find, Ne.symm hka]
        · simp [Memory.find, h, ih]

theorem readOver_write (init : Addr → Byte) (m : Memory) (a b : Addr) (v : Byte) :
    Memory.readOver init (Memory.write m a v) b = if b = a then v else Memory.readOver init m b := by
  simp only [Memory.readOver, Memory.write, find_put, BitVec.toNat_inj]
  by_cases h : a = b
  · simp [h]
  · simp [h, Ne.symm h]

@[simp] theorem read_write (m : Memory) (a b : Addr) (v : Byte) :
    Memory.read (Memory.write m a v) b = if b = a then v else Memory.read m b :=
  readOver_write _ m a b v

@[simp] theorem byteAt_writeByte (s : State) (a b : Addr) (v : Byte) :
    (s.writeByte a v).byteAt b = if b = a then v else s.byteAt b :=
  read_write s.mem a b v

/-! ## The canonical form -/

theorem mem_put {m : Memory} {a : Nat} {v : Byte} {c : Host.Cell} (h : c ∈ Memory.put m a v) :
    c = (a, v) ∨ c ∈ m := by
  induction m with
  | nil => simpa [Memory.put] using h
  | cons d rest ih =>
    obtain ⟨k, w⟩ := d
    simp only [Memory.put] at h
    split at h
    · simpa using h
    · split at h
      · rcases List.mem_cons.mp h with h | h
        · exact .inl h
        · exact .inr (List.mem_cons_of_mem _ h)
      · rcases List.mem_cons.mp h with h | h
        · exact .inr (by simp [h])
        · rcases ih h with h | h
          · exact .inl h
          · exact .inr (List.mem_cons_of_mem _ h)

theorem put_pairwise {m : Memory} (h : m.Pairwise (fun c d => c.1 < d.1)) (a : Nat) (v : Byte) :
    (Memory.put m a v).Pairwise (fun c d => c.1 < d.1) := by
  induction m with
  | nil => simp [Memory.put]
  | cons c rest ih =>
    obtain ⟨k, w⟩ := c
    rw [List.pairwise_cons] at h
    simp only [Memory.put]
    split
    · rename_i hak
      refine List.pairwise_cons.mpr ⟨?_, List.pairwise_cons.mpr h⟩
      intro d hd
      rcases List.mem_cons.mp hd with rfl | hd
      · exact hak
      · exact Nat.lt_trans hak (h.1 d hd)
    · split
      · subst_vars
        exact List.pairwise_cons.mpr h
      · refine List.pairwise_cons.mpr ⟨?_, ih h.2⟩
        intro d hd
        rcases mem_put hd with rfl | hd
        · show k < a
          omega
        · exact h.1 d hd

/-- A write keeps the canonical form. -/
theorem write_wf {m : Memory} (h : Memory.wf m) (a : Addr) (v : Byte) : Memory.wf (Memory.write m a v) := by
  refine ⟨put_pairwise h.1 _ _, fun c hc => ?_⟩
  rcases mem_put hc with rfl | hc
  · exact a.isLt
  · exact h.2 c hc

theorem writeAll_wf {m : Memory} (h : Memory.wf m) (a : Addr) (bs : List Byte) : Memory.wf (Memory.writeAll m a bs) := by
  induction bs generalizing a with
  | nil => exact h
  | cons b rest ih => exact write_wf (ih _) _ _

theorem nil_wf : Memory.wf [] := by decide

theorem find_eq_none_of_lt {m : Memory} {a : Nat} (h : ∀ c ∈ m, a < c.1) : Memory.find m a = none := by
  induction m with
  | nil => rfl
  | cons c rest ih =>
    have hc := h c (by simp)
    simp only [Memory.find, if_neg (Nat.ne_of_gt hc)]
    exact ih fun d hd => h d (List.mem_cons_of_mem _ hd)

theorem eq_of_find_eq {m m' : Memory} (h : m.Pairwise (fun c d => c.1 < d.1))
    (h' : m'.Pairwise (fun c d => c.1 < d.1)) (hf : ∀ a, Memory.find m a = Memory.find m' a) : m = m' := by
  induction m generalizing m' with
  | nil =>
    cases m' with
    | nil => rfl
    | cons c rest => have := hf c.1; simp [Memory.find] at this
  | cons c rest ih =>
    cases m' with
    | nil => have := hf c.1; simp [Memory.find] at this
    | cons d rest' =>
      obtain ⟨k, w⟩ := c
      obtain ⟨k', w'⟩ := d
      rw [List.pairwise_cons] at h h'
      have hk : k = k' := by
        rcases Nat.lt_trichotomy k k' with hlt | heq | hgt
        · have hn : Memory.find ((k', w') :: rest') k = none :=
            find_eq_none_of_lt fun e he => by
              rcases List.mem_cons.mp he with rfl | he
              · exact hlt
              · exact Nat.lt_trans hlt (h'.1 e he)
          have := hf k
          rw [hn] at this
          simp [Memory.find] at this
        · exact heq
        · have hn : Memory.find ((k, w) :: rest) k' = none :=
            find_eq_none_of_lt fun e he => by
              rcases List.mem_cons.mp he with rfl | he
              · exact hgt
              · exact Nat.lt_trans hgt (h.1 e he)
          have := hf k'
          rw [hn] at this
          simp [Memory.find] at this
      subst hk
      have hw : w = w' := by simpa [Memory.find] using hf k
      subst hw
      congr 1
      refine ih h.2 h'.2 fun a => ?_
      by_cases ha : k = a
      · subst ha
        rw [find_eq_none_of_lt h.1, find_eq_none_of_lt h'.1]
      · simpa [Memory.find, ha] using hf a

/-- The form is canonical: two memories in it that read alike under every image MEM_INIT are the same list. -/
theorem memory_ext {m m' : Memory} (h : Memory.wf m) (h' : Memory.wf m')
    (hr : ∀ init a, Memory.readOver init m a = Memory.readOver init m' a) : m = m' := by
  refine eq_of_find_eq h.1 h'.1 fun a => ?_
  by_cases ha : a < 65536
  · have key : ∀ v : Byte, (Memory.find m a).getD v = (Memory.find m' a).getD v := fun v => by
      have := hr (fun _ => v) (BitVec.ofNat 16 a)
      simpa [Memory.readOver, Nat.mod_eq_of_lt ha] using this
    cases hm : Memory.find m a with
    | none =>
      cases hm' : Memory.find m' a with
      | none => rfl
      | some v => have := key (v + 1); simp [hm, hm'] at this
    | some w =>
      cases hm' : Memory.find m' a with
      | none => have := key (w + 1); simp [hm, hm'] at this
      | some v => have := key 0; simpa [hm, hm'] using this
  · have out : ∀ n : Memory, Memory.wf n → Memory.find n a = none := fun n hn => by
      have hlt := hn.2
      clear hn
      induction n with
      | nil => rfl
      | cons c rest ih =>
        have hc : c.1 < 65536 := hlt c (by simp)
        have hne : c.1 ≠ a := by omega
        simp only [Memory.find, if_neg hne]
        exact ih fun d hd => hlt d (List.mem_cons_of_mem _ hd)
    rw [out m h, out m' h']

/-! ## Several bytes -/

/-- `writeAll` puts the k-th byte at the k-th address and leaves the rest, as long as the list is no longer than memory. -/
theorem readOver_writeAll (init : Addr → Byte) (m : Memory) (a b : Addr) (bs : List Byte) (h : bs.length ≤ 65536) :
    Memory.readOver init (Memory.writeAll m a bs) b = (bs[(b - a).toNat]?).getD (Memory.readOver init m b) := by
  induction bs generalizing a with
  | nil => simp [Memory.writeAll]
  | cons v rest ih =>
    rw [Memory.writeAll, readOver_write]
    by_cases hb : b = a
    · subst hb
      simp
    · have hsub : (b - a).toNat = (b - (a + 1#16)).toNat + 1 := by bv_omega
      rw [if_neg hb, ih (a + 1#16) (by simp at h; omega), hsub, List.getElem?_cons_succ]

theorem read_writeAll (m : Memory) (a b : Addr) (bs : List Byte) (h : bs.length ≤ 65536) :
    Memory.read (Memory.writeAll m a bs) b = (bs[(b - a).toNat]?).getD (Memory.read m b) :=
  readOver_writeAll _ m a b bs h

end Sys2Proof.Laws
end

