-- ==== Sys2Proof/Laws/State.lean ====
section
/-! SUPPORT. The record updates of State, one lemma per field per update, so that no proof unfolds one. A register named by a
constructor is written as its field (`s.a`); `s.reg r` stays for a register that is not known. -/

namespace Sys2Proof.Machine

@[simp] theorem State.reg_a (s : State) : s.reg .a = s.a := rfl
@[simp] theorem State.reg_x (s : State) : s.reg .x = s.x := rfl
@[simp] theorem State.reg_y (s : State) : s.reg .y = s.y := rfl
@[simp] theorem State.reg_sp (s : State) : s.reg .sp = s.sp := rfl

@[simp] theorem State.setP_a (s : State) (v : Byte) : (s.setP v).a = s.a := rfl
@[simp] theorem State.setP_x (s : State) (v : Byte) : (s.setP v).x = s.x := rfl
@[simp] theorem State.setP_y (s : State) (v : Byte) : (s.setP v).y = s.y := rfl
@[simp] theorem State.setP_sp (s : State) (v : Byte) : (s.setP v).sp = s.sp := rfl
@[simp] theorem State.setP_p (s : State) (v : Byte) : (s.setP v).p = v := rfl
@[simp] theorem State.setP_pc (s : State) (v : Byte) : (s.setP v).pc = s.pc := rfl
@[simp] theorem State.setP_mem (s : State) (v : Byte) : (s.setP v).mem = s.mem := rfl
@[simp] theorem State.setP_ic (s : State) (v : Byte) : (s.setP v).ic = s.ic := rfl
@[simp] theorem State.setP_outcome (s : State) (v : Byte) : (s.setP v).outcome = s.outcome := rfl
@[simp] theorem State.setP_reg (s : State) (v : Byte) (r : Reg) : (s.setP v).reg r = s.reg r := by cases r <;> rfl
@[simp] theorem State.setP_byteAt (s : State) (v : Byte) (a : Addr) : (s.setP v).byteAt a = s.byteAt a := rfl

@[simp] theorem State.setPC_a (s : State) (v : Addr) : (s.setPC v).a = s.a := rfl
@[simp] theorem State.setPC_x (s : State) (v : Addr) : (s.setPC v).x = s.x := rfl
@[simp] theorem State.setPC_y (s : State) (v : Addr) : (s.setPC v).y = s.y := rfl
@[simp] theorem State.setPC_sp (s : State) (v : Addr) : (s.setPC v).sp = s.sp := rfl
@[simp] theorem State.setPC_p (s : State) (v : Addr) : (s.setPC v).p = s.p := rfl
@[simp] theorem State.setPC_pc (s : State) (v : Addr) : (s.setPC v).pc = v := rfl
@[simp] theorem State.setPC_mem (s : State) (v : Addr) : (s.setPC v).mem = s.mem := rfl
@[simp] theorem State.setPC_ic (s : State) (v : Addr) : (s.setPC v).ic = s.ic := rfl
@[simp] theorem State.setPC_outcome (s : State) (v : Addr) : (s.setPC v).outcome = s.outcome := rfl
@[simp] theorem State.setPC_reg (s : State) (v : Addr) (r : Reg) : (s.setPC v).reg r = s.reg r := by cases r <;> rfl
@[simp] theorem State.setPC_flag (s : State) (v : Addr) (f : Flag) : (s.setPC v).flag f = s.flag f := rfl
@[simp] theorem State.setPC_byteAt (s : State) (v : Addr) (a : Addr) : (s.setPC v).byteAt a = s.byteAt a := rfl

@[simp] theorem State.setMem_a (s : State) (v : Memory) : (s.setMem v).a = s.a := rfl
@[simp] theorem State.setMem_x (s : State) (v : Memory) : (s.setMem v).x = s.x := rfl
@[simp] theorem State.setMem_y (s : State) (v : Memory) : (s.setMem v).y = s.y := rfl
@[simp] theorem State.setMem_sp (s : State) (v : Memory) : (s.setMem v).sp = s.sp := rfl
@[simp] theorem State.setMem_p (s : State) (v : Memory) : (s.setMem v).p = s.p := rfl
@[simp] theorem State.setMem_pc (s : State) (v : Memory) : (s.setMem v).pc = s.pc := rfl
@[simp] theorem State.setMem_mem (s : State) (v : Memory) : (s.setMem v).mem = v := rfl
@[simp] theorem State.setMem_ic (s : State) (v : Memory) : (s.setMem v).ic = s.ic := rfl
@[simp] theorem State.setMem_outcome (s : State) (v : Memory) : (s.setMem v).outcome = s.outcome := rfl
@[simp] theorem State.setMem_reg (s : State) (v : Memory) (r : Reg) : (s.setMem v).reg r = s.reg r := by cases r <;> rfl
@[simp] theorem State.setMem_flag (s : State) (v : Memory) (f : Flag) : (s.setMem v).flag f = s.flag f := rfl

@[simp] theorem State.setIC_a (s : State) (v : Nat) : (s.setIC v).a = s.a := rfl
@[simp] theorem State.setIC_x (s : State) (v : Nat) : (s.setIC v).x = s.x := rfl
@[simp] theorem State.setIC_y (s : State) (v : Nat) : (s.setIC v).y = s.y := rfl
@[simp] theorem State.setIC_sp (s : State) (v : Nat) : (s.setIC v).sp = s.sp := rfl
@[simp] theorem State.setIC_p (s : State) (v : Nat) : (s.setIC v).p = s.p := rfl
@[simp] theorem State.setIC_pc (s : State) (v : Nat) : (s.setIC v).pc = s.pc := rfl
@[simp] theorem State.setIC_mem (s : State) (v : Nat) : (s.setIC v).mem = s.mem := rfl
@[simp] theorem State.setIC_ic (s : State) (v : Nat) : (s.setIC v).ic = v := rfl
@[simp] theorem State.setIC_outcome (s : State) (v : Nat) : (s.setIC v).outcome = s.outcome := rfl
@[simp] theorem State.setIC_reg (s : State) (v : Nat) (r : Reg) : (s.setIC v).reg r = s.reg r := by cases r <;> rfl
@[simp] theorem State.setIC_flag (s : State) (v : Nat) (f : Flag) : (s.setIC v).flag f = s.flag f := rfl
@[simp] theorem State.setIC_byteAt (s : State) (v : Nat) (a : Addr) : (s.setIC v).byteAt a = s.byteAt a := rfl

@[simp] theorem State.setOutcome_a (s : State) (v : Ending) : (s.setOutcome v).a = s.a := rfl
@[simp] theorem State.setOutcome_x (s : State) (v : Ending) : (s.setOutcome v).x = s.x := rfl
@[simp] theorem State.setOutcome_y (s : State) (v : Ending) : (s.setOutcome v).y = s.y := rfl
@[simp] theorem State.setOutcome_sp (s : State) (v : Ending) : (s.setOutcome v).sp = s.sp := rfl
@[simp] theorem State.setOutcome_p (s : State) (v : Ending) : (s.setOutcome v).p = s.p := rfl
@[simp] theorem State.setOutcome_pc (s : State) (v : Ending) : (s.setOutcome v).pc = s.pc := rfl
@[simp] theorem State.setOutcome_mem (s : State) (v : Ending) : (s.setOutcome v).mem = s.mem := rfl
@[simp] theorem State.setOutcome_ic (s : State) (v : Ending) : (s.setOutcome v).ic = s.ic := rfl
@[simp] theorem State.setOutcome_outcome (s : State) (v : Ending) : (s.setOutcome v).outcome = v := rfl
@[simp] theorem State.setOutcome_reg (s : State) (v : Ending) (r : Reg) : (s.setOutcome v).reg r = s.reg r := by cases r <;> rfl
@[simp] theorem State.setOutcome_flag (s : State) (v : Ending) (f : Flag) : (s.setOutcome v).flag f = s.flag f := rfl
@[simp] theorem State.setOutcome_byteAt (s : State) (v : Ending) (a : Addr) : (s.setOutcome v).byteAt a = s.byteAt a := rfl

@[simp] theorem State.setReg_a_a (s : State) (v : Byte) : (s.setReg .a v).a = v := rfl
@[simp] theorem State.setReg_a_x (s : State) (v : Byte) : (s.setReg .a v).x = s.x := rfl
@[simp] theorem State.setReg_a_y (s : State) (v : Byte) : (s.setReg .a v).y = s.y := rfl
@[simp] theorem State.setReg_a_sp (s : State) (v : Byte) : (s.setReg .a v).sp = s.sp := rfl
@[simp] theorem State.setReg_x_a (s : State) (v : Byte) : (s.setReg .x v).a = s.a := rfl
@[simp] theorem State.setReg_x_x (s : State) (v : Byte) : (s.setReg .x v).x = v := rfl
@[simp] theorem State.setReg_x_y (s : State) (v : Byte) : (s.setReg .x v).y = s.y := rfl
@[simp] theorem State.setReg_x_sp (s : State) (v : Byte) : (s.setReg .x v).sp = s.sp := rfl
@[simp] theorem State.setReg_y_a (s : State) (v : Byte) : (s.setReg .y v).a = s.a := rfl
@[simp] theorem State.setReg_y_x (s : State) (v : Byte) : (s.setReg .y v).x = s.x := rfl
@[simp] theorem State.setReg_y_y (s : State) (v : Byte) : (s.setReg .y v).y = v := rfl
@[simp] theorem State.setReg_y_sp (s : State) (v : Byte) : (s.setReg .y v).sp = s.sp := rfl
@[simp] theorem State.setReg_sp_a (s : State) (v : Byte) : (s.setReg .sp v).a = s.a := rfl
@[simp] theorem State.setReg_sp_x (s : State) (v : Byte) : (s.setReg .sp v).x = s.x := rfl
@[simp] theorem State.setReg_sp_y (s : State) (v : Byte) : (s.setReg .sp v).y = s.y := rfl
@[simp] theorem State.setReg_sp_sp (s : State) (v : Byte) : (s.setReg .sp v).sp = v := rfl
@[simp] theorem State.setReg_p (s : State) (r : Reg) (v : Byte) : (s.setReg r v).p = s.p := by cases r <;> rfl
@[simp] theorem State.setReg_pc (s : State) (r : Reg) (v : Byte) : (s.setReg r v).pc = s.pc := by cases r <;> rfl
@[simp] theorem State.setReg_mem (s : State) (r : Reg) (v : Byte) : (s.setReg r v).mem = s.mem := by cases r <;> rfl
@[simp] theorem State.setReg_ic (s : State) (r : Reg) (v : Byte) : (s.setReg r v).ic = s.ic := by cases r <;> rfl
@[simp] theorem State.setReg_outcome (s : State) (r : Reg) (v : Byte) : (s.setReg r v).outcome = s.outcome := by cases r <;> rfl
@[simp] theorem State.setReg_reg (s : State) (r q : Reg) (v : Byte) :
    (s.setReg r v).reg q = if q = r then v else s.reg q := by cases r <;> cases q <;> rfl
@[simp] theorem State.setReg_flag (s : State) (r : Reg) (v : Byte) (f : Flag) : (s.setReg r v).flag f = s.flag f := by
  cases r <;> rfl
@[simp] theorem State.setReg_byteAt (s : State) (r : Reg) (v : Byte) (a : Addr) :
    (s.setReg r v).byteAt a = s.byteAt a := by cases r <;> rfl

@[simp] theorem State.setP_flag (s : State) (p : Byte) (f : Flag) : (s.setP p).flag f = getFlag p f := rfl
@[simp] theorem State.setMem_byteAt (s : State) (m : Memory) (a : Addr) : (s.setMem m).byteAt a = m.read a := rfl

@[simp] theorem State.setPC_setPC (s : State) (a b : Addr) : (s.setPC a).setPC b = s.setPC b := rfl

/-- Two states with the same fields are the same state, the registers taken together. -/
theorem State.ext_fields {s t : State} (hr : ∀ r, s.reg r = t.reg r) (hp : s.p = t.p) (hpc : s.pc = t.pc)
    (hm : s.mem = t.mem) (hic : s.ic = t.ic) (ho : s.outcome = t.outcome) : s = t := by
  have ha := hr .a; have hx := hr .x; have hy := hr .y; have hsp := hr .sp
  cases s; cases t; simp_all [State.reg]

end Sys2Proof.Machine
end

