-- ==== Sys2Proof/Laws/Ops.lean ====
section
/-! SUPPORT. The small lemmas of the named operations: SetFlag, SetNZ, a byte written, Push, Pull, RTI's pulls. -/

namespace Sys2Proof.Machine

/-! ## Updates of P and of memory, field by field -/

@[simp] theorem State.setFlag_a (s : State) (f : Flag) (b : Bool) : (s.setFlag f b).a = s.a := rfl
@[simp] theorem State.setFlag_x (s : State) (f : Flag) (b : Bool) : (s.setFlag f b).x = s.x := rfl
@[simp] theorem State.setFlag_y (s : State) (f : Flag) (b : Bool) : (s.setFlag f b).y = s.y := rfl
@[simp] theorem State.setFlag_sp (s : State) (f : Flag) (b : Bool) : (s.setFlag f b).sp = s.sp := rfl
@[simp] theorem State.setFlag_pc (s : State) (f : Flag) (b : Bool) : (s.setFlag f b).pc = s.pc := rfl
@[simp] theorem State.setFlag_mem (s : State) (f : Flag) (b : Bool) : (s.setFlag f b).mem = s.mem := rfl
@[simp] theorem State.setFlag_ic (s : State) (f : Flag) (b : Bool) : (s.setFlag f b).ic = s.ic := rfl
@[simp] theorem State.setFlag_outcome (s : State) (f : Flag) (b : Bool) : (s.setFlag f b).outcome = s.outcome := rfl
@[simp] theorem State.setFlag_reg (s : State) (f : Flag) (b : Bool) (r' : Reg) : (s.setFlag f b).reg r' = s.reg r' := by cases r' <;> rfl
@[simp] theorem State.setFlag_byteAt (s : State) (f : Flag) (b : Bool) (a : Addr) : (s.setFlag f b).byteAt a = s.byteAt a := rfl
@[simp] theorem State.setNZ_a (s : State) (r : Byte) : (s.setNZ r).a = s.a := rfl
@[simp] theorem State.setNZ_x (s : State) (r : Byte) : (s.setNZ r).x = s.x := rfl
@[simp] theorem State.setNZ_y (s : State) (r : Byte) : (s.setNZ r).y = s.y := rfl
@[simp] theorem State.setNZ_sp (s : State) (r : Byte) : (s.setNZ r).sp = s.sp := rfl
@[simp] theorem State.setNZ_pc (s : State) (r : Byte) : (s.setNZ r).pc = s.pc := rfl
@[simp] theorem State.setNZ_mem (s : State) (r : Byte) : (s.setNZ r).mem = s.mem := rfl
@[simp] theorem State.setNZ_ic (s : State) (r : Byte) : (s.setNZ r).ic = s.ic := rfl
@[simp] theorem State.setNZ_outcome (s : State) (r : Byte) : (s.setNZ r).outcome = s.outcome := rfl
@[simp] theorem State.setNZ_reg (s : State) (r : Byte) (r' : Reg) : (s.setNZ r).reg r' = s.reg r' := by cases r' <;> rfl
@[simp] theorem State.setNZ_byteAt (s : State) (r : Byte) (a : Addr) : (s.setNZ r).byteAt a = s.byteAt a := rfl
@[simp] theorem State.writeByte_a (s : State) (ea : Addr) (v : Byte) : (s.writeByte ea v).a = s.a := rfl
@[simp] theorem State.writeByte_x (s : State) (ea : Addr) (v : Byte) : (s.writeByte ea v).x = s.x := rfl
@[simp] theorem State.writeByte_y (s : State) (ea : Addr) (v : Byte) : (s.writeByte ea v).y = s.y := rfl
@[simp] theorem State.writeByte_sp (s : State) (ea : Addr) (v : Byte) : (s.writeByte ea v).sp = s.sp := rfl
@[simp] theorem State.writeByte_p (s : State) (ea : Addr) (v : Byte) : (s.writeByte ea v).p = s.p := rfl
@[simp] theorem State.writeByte_pc (s : State) (ea : Addr) (v : Byte) : (s.writeByte ea v).pc = s.pc := rfl
@[simp] theorem State.writeByte_ic (s : State) (ea : Addr) (v : Byte) : (s.writeByte ea v).ic = s.ic := rfl
@[simp] theorem State.writeByte_outcome (s : State) (ea : Addr) (v : Byte) : (s.writeByte ea v).outcome = s.outcome := rfl
@[simp] theorem State.writeByte_reg (s : State) (ea : Addr) (v : Byte) (r : Reg) : (s.writeByte ea v).reg r = s.reg r := by cases r <;> rfl
@[simp] theorem State.writeByte_flag (s : State) (ea : Addr) (v : Byte) (f : Flag) : (s.writeByte ea v).flag f = s.flag f := rfl

/-! ## The stack -/

/-- The stack address is `0x0100 + SP` and lies in the stack page (R26). -/
theorem stackAddr_toNat (sp : Byte) : (stackAddr sp).toNat = 0x0100 + sp.toNat := by
  have := sp.isLt
  simp [stackAddr, Config.stackBase]
  omega

theorem stackAddr_inj {p q : Byte} (h : stackAddr p = stackAddr q) : p = q := by
  have := congrArg BitVec.toNat h
  simp only [stackAddr_toNat] at this
  exact BitVec.eq_of_toNat_eq (by omega)

/-- What Push does to every part of the state (R118). -/
theorem push_reg (b : Byte) (s : State) (r : Reg) : (push b s).reg r = if r = .sp then s.sp - 1#8 else s.reg r := by
  simp [push]

@[simp] theorem push_sp (b : Byte) (s : State) : (push b s).sp = s.sp - 1#8 := by simp [push]
@[simp] theorem push_p (b : Byte) (s : State) : (push b s).p = s.p := by simp [push]
@[simp] theorem push_pc (b : Byte) (s : State) : (push b s).pc = s.pc := by simp [push]
@[simp] theorem push_ic (b : Byte) (s : State) : (push b s).ic = s.ic := by simp [push]
@[simp] theorem push_outcome (b : Byte) (s : State) : (push b s).outcome = s.outcome := by simp [push]
@[simp] theorem push_flag (b : Byte) (s : State) (f : Flag) : (push b s).flag f = s.flag f := by simp [push]
theorem push_byteAt (b : Byte) (s : State) (a : Addr) :
    (push b s).byteAt a = if a = stackAddr s.sp then b else s.byteAt a := by simp [push]

/-- What Pull gives and does (R119): the byte, and SP advanced; nothing else. -/
@[simp] theorem pull_fst (s : State) : (pull s).1 = s.byteAt (stackAddr (s.sp + 1#8)) := rfl
@[simp] theorem pull_snd (s : State) : (pull s).2 = s.setReg .sp (s.sp + 1#8) := rfl

/-- A pull after a push gives the byte back and SP as it was (R121, one byte). -/
theorem pull_push (b : Byte) (s : State) :
    (pull (push b s)).1 = b ∧ (pull (push b s)).2.sp = s.sp := by
  have h : s.sp - 1#8 + 1#8 = s.sp := BitVec.sub_add_cancel _ _
  simp [push_byteAt, h]

/-- RTI's pulls (R205), part by part. -/
theorem pullStatusAndPC_eq (s : State) :
    pullStatusAndPC s =
      ((s.setReg .sp (s.sp + 1#8 + 1#8 + 1#8)).setP (s.byteAt (stackAddr (s.sp + 1#8)))).setPC
        (joinBytes (s.byteAt (stackAddr (s.sp + 1#8 + 1#8 + 1#8))) (s.byteAt (stackAddr (s.sp + 1#8 + 1#8)))) := rfl

/-! ## The resolver reads X, Y and memory only (R95) -/

@[simp] theorem resolve_setP (m : AddrMode) (s : State) (p : Byte) : resolve m (s.setP p) = resolve m s := by cases m <;> rfl
@[simp] theorem resolve_setFlag (m : AddrMode) (s : State) (f : Flag) (b : Bool) :
    resolve m (s.setFlag f b) = resolve m s := resolve_setP m s _
@[simp] theorem resolve_setPC (m : AddrMode) (s : State) (a : Addr) : resolve m (s.setPC a) = resolve m s := by cases m <;> rfl
@[simp] theorem resolve_setIC (m : AddrMode) (s : State) (n : Nat) : resolve m (s.setIC n) = resolve m s := by cases m <;> rfl
@[simp] theorem resolve_setOutcome (m : AddrMode) (s : State) (e : Ending) :
    resolve m (s.setOutcome e) = resolve m s := by cases m <;> rfl

end Sys2Proof.Machine
end

