-- ==== Sys2Proof/Laws/Meanings.lean ====
section
/-! SUPPORT. One lemma per shared operation of the meanings: everything it does, as a `Does`. A claim about an instruction cites
the lemma of the operation its meaning is a call of. -/

namespace Sys2Proof.Laws

open Sys2Proof.Machine

/-- A `Does` from its parts. -/
theorem does_next {e : Effect} {s t : State}
    (hr : ∀ w ∈ e.regs, t.reg w.1 = w.2) (hr' : ∀ r, r ∉ e.regs.map Prod.fst → t.reg r = s.reg r)
    (hf : ∀ w ∈ e.flags, t.flag w.1 = w.2) (hf' : ∀ f, f ∉ e.flags.map Prod.fst → t.flag f = s.flag f)
    (hb : ∀ w ∈ e.bytes, t.byteAt w.1 = w.2) (hb' : ∀ a, a ∉ e.bytes.map Prod.fst → t.byteAt a = s.byteAt a)
    (hpc : t.pc = e.pc.getD s.pc) (hic : t.ic = s.ic) (ho : t.outcome = e.outcome.getD s.outcome) :
    Does e s (.next t) :=
  ⟨t, rfl, hr, hr', hf, hf', hb, hb', hpc, hic, ho⟩

theorem loadReg_does (r : Reg) (m : Byte) (s : State) :
    Does { regs := [(r, m)], flags := nz m } s (loadReg r m s) :=
  does_next (by simp) (by simp +contextual) (by simp [nz]) (by simp +contextual [nz]) (by simp) (by simp) (by simp) (by simp) (by simp)

theorem storeByte_does (mode : AddrMode) (v : Byte) (s : State) :
    Does { bytes := [(resolve mode s, v)] } s (storeByte mode v s) :=
  does_next (by simp) (by simp) (by simp) (by simp) (by simp) (by simp +contextual) (by simp) (by simp) (by simp)

theorem writeSum_does (alu : Byte × Bool × Bool) (s : State) :
    Does { regs := [(.a, alu.1)], flags := nz alu.1 ++ [(.c, alu.2.1), (.v, alu.2.2)] } s (writeSum alu s) :=
  does_next (by simp) (by simp +contextual) (by simp [nz]) (by simp +contextual [nz]) (by simp) (by simp) (by simp) (by simp) (by simp)

theorem modifyByte_does (f : Byte → Byte) (mode : AddrMode) (s : State) :
    Does { bytes := [(resolve mode s, f (s.byteAt (resolve mode s)))], flags := nz (f (s.byteAt (resolve mode s))) } s
      (modifyByte f mode s) :=
  does_next (by simp) (by simp) (by simp [nz]) (by simp +contextual [nz]) (by simp) (by simp +contextual) (by simp) (by simp) (by simp)

theorem modifyReg_does (f : Byte → Byte) (r : Reg) (s : State) :
    Does { regs := [(r, f (s.reg r))], flags := nz (f (s.reg r)) } s (modifyReg f r s) :=
  loadReg_does r (f (s.reg r)) s

theorem combineA_does (f : Byte → Byte → Byte) (m : Byte) (s : State) :
    Does { regs := [(.a, f s.a m)], flags := nz (f s.a m) } s (combineA f m s) :=
  loadReg_does .a (f s.a m) s

theorem shiftA_does (f : Byte → Byte × Bool) (s : State) :
    Does { regs := [(.a, (f s.a).1)], flags := nz (f s.a).1 ++ [(.c, (f s.a).2)] } s (shiftA f s) :=
  does_next (by simp) (by simp +contextual) (by simp [nz]) (by simp +contextual [nz]) (by simp) (by simp) (by simp) (by simp) (by simp)

theorem shiftByte_does (f : Byte → Byte × Bool) (mode : AddrMode) (s : State) :
    Does { bytes := [(resolve mode s, (f (s.byteAt (resolve mode s))).1)],
           flags := nz (f (s.byteAt (resolve mode s))).1 ++ [(.c, (f (s.byteAt (resolve mode s))).2)] } s
      (shiftByte f mode s) :=
  does_next (by simp) (by simp) (by simp [nz]) (by simp +contextual [nz]) (by simp) (by simp +contextual) (by simp) (by simp) (by simp)

theorem compareReg_does (r : Reg) (m : Byte) (s : State) :
    Does { flags := nz (cmp8 (s.reg r) m).1 ++ [(.c, (cmp8 (s.reg r) m).2)] } s (compareReg r m s) :=
  show Does _ s (.next ((s.setFlag .c (cmp8 (s.reg r) m).2).setNZ (cmp8 (s.reg r) m).1)) from
  does_next (by simp) (by simp) (by simp [nz]) (by simp +contextual [nz]) (by simp) (by simp) (by simp) (by simp) (by simp)

theorem branchIf_does (c : Bool) (d : Byte) (s : State) :
    Does { pc := some (if c then branchTarget d s else s.pc) } s (branchIf c d s) := by
  cases c <;>
    exact does_next (by simp) (by simp) (by simp) (by simp) (by simp) (by simp) (by simp) (by simp) (by simp)

theorem writeFlag_does (f : Flag) (b : Bool) (s : State) : Does { flags := [(f, b)] } s (writeFlag f b s) :=
  does_next (by simp) (by simp) (by simp) (by simp +contextual) (by simp) (by simp) (by simp) (by simp) (by simp)

theorem pushByte_does (b : Byte) (s : State) :
    Does { regs := [(.sp, s.sp - 1#8)], bytes := [(stackAddr s.sp, b)] } s (pushByte b s) :=
  does_next (by simp) (by simp +contextual [push_reg]) (by simp) (by simp) (by simp [push_byteAt])
    (by simp +contextual [push_byteAt]) (by simp) (by simp) (by simp)

/-- `r` is one of the registers a pull goes to, not SP itself. -/
theorem pullReg_does (r : Reg) (hr : r ≠ .sp) (s : State) :
    Does { regs := [(r, s.byteAt (stackAddr (s.sp + 1#8))), (.sp, s.sp + 1#8)],
           flags := nz (s.byteAt (stackAddr (s.sp + 1#8))) } s (pullReg r s) :=
  does_next (by simp [hr.symm]) (by simp +contextual) (by simp [nz]) (by simp +contextual [nz]) (by simp) (by simp) (by simp) (by simp) (by simp)

/-- A status byte written whole gives every flag its bit. -/
theorem allFlags_of_setP (v : Byte) (s : State) : ∀ w ∈ allFlags v, (s.setP v).flag w.1 = w.2 := by
  simp [allFlags, getFlag, Flag.bit]

theorem allFlags_complete (v : Byte) (f : Flag) : f ∈ (allFlags v).map Prod.fst := by
  cases f <;> simp [allFlags]

/-- Every meaning answers a next state: no instruction faults or refuses once it is fetched (R217). -/
theorem exec_next (i : Instr) (s : State) : ∃ t, exec i s = .next t := by
  cases i <;> exact ⟨_, rfl⟩

end Sys2Proof.Laws
end

