-- ==== Sys2Proof/Laws/Step.lean ====
section
/-! SUPPORT. The execution loop: what a fetch gives in each of its cases, and what a step's answer says about the step. -/

namespace Sys2Proof.Laws

open Sys2Proof.Machine

/-! ## One byte -/

theorem fetchByte_below {s : State} (h : s.pc ≠ Config.topAddr) :
    fetchByte s = .ok (s.byteAt s.pc, s.setPC (s.pc + 1#16)) := by
  simp [fetchByte, h]

theorem fetchByte_top {s : State} (h : s.pc = Config.topAddr) : fetchByte s = .error .addressSpaceExhausted := by
  simp [fetchByte, h]

theorem ne_top_iff (a : Addr) : a ≠ Config.topAddr ↔ a.toNat + 1 ≤ 65535 := by
  constructor
  · intro h
    have : a.toNat ≠ 65535 := fun h' => h (BitVec.eq_of_toNat_eq (by simpa [Config.topAddr] using h'))
    have := a.isLt
    omega
  · rintro h rfl
    simp [Config.topAddr] at h

/-! ## A whole instruction -/

/-- The instruction a handler makes of the bytes after PC. -/
def madeAt (s : State) : Handler → Instr
  | .noOperand i => i
  | .oneByte f => f (s.byteAt (s.pc + 1#16))
  | .twoBytes f => f (joinBytes (s.byteAt (s.pc + 2#16)) (s.byteAt (s.pc + 1#16)))

/-- The three cases of a fetch whose opcode byte lies below 0xFFFF (R218): no handler; every byte below 0xFFFF; a byte at
0xFFFF. -/
theorem fetchInstr_unassigned {s : State} (h : s.pc ≠ Config.topAddr) (hh : handlerOf (s.byteAt s.pc) = none) :
    fetchInstr s = .error (.unassignedOpcode (s.byteAt s.pc) s.pc) := by
  simp [fetchInstr, fetchByte_below h, hh]

theorem fetchInstr_handler {s : State} {g : Handler} (h : s.pc ≠ Config.topAddr)
    (hh : handlerOf (s.byteAt s.pc) = some g) :
    fetchInstr s =
      if s.pc.toNat + g.length ≤ 65535 then .ok (madeAt s g, s.setPC (s.pc + BitVec.ofNat 16 g.length))
      else .error .addressSpaceExhausted := by
  have h0 := (ne_top_iff s.pc).mp h
  have e1 : (s.pc + 1#16).toNat = s.pc.toNat + 1 := by bv_omega
  have e2 : s.pc + 1#16 + 1#16 = s.pc + 2#16 := by bv_omega
  have e3 : s.pc + 2#16 + 1#16 = s.pc + 3#16 := by bv_omega
  simp only [fetchInstr, fetchByte_below h, hh]
  cases g with
  | noOperand i => simp [fetchOperands, Handler.length, madeAt, h0]
  | oneByte f =>
    by_cases h1 : s.pc + 1#16 = Config.topAddr
    · have hl : ¬ s.pc.toNat + 2 ≤ 65535 := fun hl => (ne_top_iff _).mpr (by omega) h1
      simp only [fetchOperands, Handler.length, fetchByte_top (s := s.setPC (s.pc + 1#16)) h1, hl, ↓reduceIte]
    · have hl : s.pc.toNat + 2 ≤ 65535 := by have := (ne_top_iff _).mp h1; omega
      simp only [fetchOperands, Handler.length, fetchByte_below (s := s.setPC (s.pc + 1#16)) h1, hl, ↓reduceIte, madeAt,
        State.setPC_pc, State.setPC_byteAt, State.setPC_setPC, e2]
  | twoBytes f =>
    by_cases h1 : s.pc + 1#16 = Config.topAddr
    · have hl : ¬ s.pc.toNat + 3 ≤ 65535 := fun hl => (ne_top_iff _).mpr (by omega) h1
      simp only [fetchOperands, Handler.length, fetchByte_top (s := s.setPC (s.pc + 1#16)) h1, hl, ↓reduceIte]
    · have hl1 := (ne_top_iff _).mp h1
      have e2n : (s.pc + 2#16).toNat = s.pc.toNat + 2 := by bv_omega
      simp only [fetchOperands, Handler.length, fetchByte_below (s := s.setPC (s.pc + 1#16)) h1, madeAt,
        State.setPC_pc, State.setPC_byteAt, State.setPC_setPC, e2]
      by_cases h2 : s.pc + 2#16 = Config.topAddr
      · have hl : ¬ s.pc.toNat + 3 ≤ 65535 := fun hl => (ne_top_iff _).mpr (by omega) h2
        simp only [fetchByte_top (s := s.setPC (s.pc + 2#16)) h2, hl, ↓reduceIte]
      · have hl : s.pc.toNat + 3 ≤ 65535 := by have := (ne_top_iff _).mp h2; omega
        simp only [fetchByte_below (s := s.setPC (s.pc + 2#16)) h2, hl, ↓reduceIte,
          State.setPC_pc, State.setPC_byteAt, State.setPC_setPC, e3]

theorem fetchInstr_top {s : State} (h : s.pc = Config.topAddr) : fetchInstr s = .error .addressSpaceExhausted := by
  simp [fetchInstr, fetchByte_top h]

/-- A fetch that succeeds: the handler of the byte at PC made the instruction, every byte of it lies below 0xFFFF, and the
state differs in PC alone. -/
theorem fetchInstr_ok {s u : State} {i : Instr} (h : fetchInstr s = .ok (i, u)) :
    ∃ g, handlerOf (s.byteAt s.pc) = some g ∧ i = madeAt s g ∧ s.pc.toNat + g.length ≤ 65535 ∧
      u = s.setPC (s.pc + BitVec.ofNat 16 g.length) := by
  by_cases hpc : s.pc = Config.topAddr
  · simp [fetchInstr_top hpc] at h
  · cases hh : handlerOf (s.byteAt s.pc) with
    | none => simp [fetchInstr_unassigned hpc hh] at h
    | some g =>
      rw [fetchInstr_handler hpc hh] at h
      split at h
      · simp only [Except.ok.injEq, Prod.mk.injEq] at h
        exact ⟨g, rfl, h.1.symm, by assumption, h.2.symm⟩
      · simp at h

/-- A fetch that fails: one of the two stops (R212, R213). -/
theorem fetchInstr_error {s : State} {f : Fault} (h : fetchInstr s = .error f) :
    f = .addressSpaceExhausted ∨
      (f = .unassignedOpcode (s.byteAt s.pc) s.pc ∧ s.pc ≠ Config.topAddr ∧ handlerOf (s.byteAt s.pc) = none) := by
  by_cases hpc : s.pc = Config.topAddr
  · rw [fetchInstr_top hpc] at h
    simp at h
    exact .inl h.symm
  · cases hh : handlerOf (s.byteAt s.pc) with
    | none =>
      rw [fetchInstr_unassigned hpc hh] at h
      simp at h
      exact .inr ⟨h.symm, hpc, rfl⟩
    | some g =>
      rw [fetchInstr_handler hpc hh] at h
      split at h
      · simp at h
      · simp at h
        exact .inl h.symm

/-- The decoder reads the instruction the fetch makes. -/
theorem decode_madeAt {s : State} {g : Handler} (hh : handlerOf (s.byteAt s.pc) = some g) :
    ∃ rest, decode (bytesAtPC s) = .ok (madeAt s g, rest) := by
  cases g <;> simp [bytesAtPC, decode, hh, readOperands, madeAt]

/-- The length of what a handler of the table makes. -/
theorem madeAt_length {s : State} {g : Handler} (hh : handlerOf (s.byteAt s.pc) = some g) :
    (madeAt s g).length = g.length := by
  have := handlerOf_sound hh
  cases g with
  | noOperand i => exact this.2.1
  | oneByte f => exact (this _).2.1
  | twoBytes f => exact (this _).2.1

/-! ## A step -/

/-- A step that answers a next state: the instruction fetched, run with PC past it, and counted. -/
theorem step_next {s t : State} (h : step s = .next t) :
    ∃ i u v, fetchInstr s = .ok (i, u) ∧ exec i (u.setOutcome .running) = .next v ∧ t = v.setIC (v.ic + 1) := by
  unfold step at h
  cases hf : fetchInstr s with
  | error f => simp [hf] at h
  | ok iu =>
    obtain ⟨i, u⟩ := iu
    obtain ⟨v, hv⟩ := exec_next i (u.setOutcome .running)
    simp only [hf, beginInstr, hv, retire] at h
    exact ⟨i, u, v, rfl, hv, by simpa using h.symm⟩

theorem step_of_fetch {s u : State} {i : Instr} (h : fetchInstr s = .ok (i, u)) :
    step s = retire (exec i (u.setOutcome .running)) := by
  simp [step, h, beginInstr]

theorem step_of_error {s : State} {f : Fault} (h : fetchInstr s = .error f) : step s = .fault f := by
  simp [step, h]

/-- What a step can answer: a next state, or one of the two stops of R212 and R213. -/
theorem step_cases (s : State) :
    (∃ t, step s = .next t) ∨ step s = .fault .addressSpaceExhausted ∨
      step s = .fault (.unassignedOpcode (s.byteAt s.pc) s.pc) := by
  cases hf : fetchInstr s with
  | error f =>
    rcases fetchInstr_error hf with rfl | ⟨rfl, -, -⟩
    · exact .inr (.inl (step_of_error hf))
    · exact .inr (.inr (step_of_error hf))
  | ok iu =>
    obtain ⟨v, hv⟩ := exec_next iu.1 (iu.2.setOutcome .running)
    exact .inl ⟨_, by rw [step_of_fetch hf, hv]; rfl⟩

end Sys2Proof.Laws
end

