-- ==== Sys2Proof/Laws/Observe.lean ====
section
/-! SUPPORT. What an observer sees of a step, case by case of its fetch. -/

namespace Sys2Proof.Laws

open Sys2Proof.Machine

/-- The bytes fetched are the `n` from `pc` on, or those up to 0xFFFF where that comes first. -/
theorem fetches_eq (n : Nat) (pc : Addr) :
    fetches n pc = (List.range (min n (65536 - pc.toNat))).map (fun k => Access.fetch (pc + BitVec.ofNat 16 k)) := by
  induction n generalizing pc with
  | zero => simp [fetches]
  | succ n ih =>
    have hlt := pc.isLt
    by_cases h : pc = Config.topAddr
    · have hm : min (n + 1) (65536 - pc.toNat) = 1 := by rw [h]; simp [Config.topAddr]
      rw [fetches, if_pos h, hm]
      simp
    · have hl := (ne_top_iff pc).mp h
      have hp : (pc + 1#16).toNat = pc.toNat + 1 := by bv_omega
      have hm : min (n + 1) (65536 - pc.toNat) = min n (65536 - (pc.toNat + 1)) + 1 := by omega
      rw [fetches, if_neg h, ih, hp, hm, List.range_succ_eq_map, List.map_cons, List.map_map]
      congr 1
      · simp
      · refine List.map_congr_left fun k _ => ?_
        simp only [Function.comp, Nat.succ_eq_add_one, BitVec.ofNat_add]
        rw [BitVec.add_assoc, BitVec.add_comm (1#16)]

/-- A step whose instruction was fetched: that instruction's bytes, then its operation's accesses. -/
theorem accesses_of_fetch {s u : State} {i : Instr} (h : fetchInstr s = .ok (i, u)) :
    accesses s = fetches i.length s.pc ++ operationAccesses i u := by
  obtain ⟨g, hg, rfl, -, -⟩ := fetchInstr_ok h
  simp only [accesses, h, fetchLength, hg, madeAt_length hg]

/-- A step that ends in an error: the bytes it fetched and nothing after them. -/
theorem accesses_of_error {s : State} {f : Fault} (h : fetchInstr s = .error f) :
    accesses s = fetches (fetchLength s) s.pc := by
  simp [accesses, h]

theorem trace_of_fetch {s u : State} {i : Instr} (h : fetchInstr s = .ok (i, u)) :
    trace s = some { mnemonic := i.mnemonic, format := i.format, operand := traceOperand i.operand u } := by
  simp [trace, h]

theorem trace_of_error {s : State} {f : Fault} (h : fetchInstr s = .error f) : trace s = none := by
  simp [trace, h]

end Sys2Proof.Laws
end

