-- ==== Sys2Proof/Laws/PerInstr.lean ====
section
/-! SUPPORT. A statement about every instruction as syntax, one lemma per constructor: the shape of its encoding. -/

namespace Sys2Proof.Laws.EncodingShape

/-- The encoding is as long as the format says (R71), begins with the opcode byte, is at most three bytes (R70), and the
instruction may stand at address 0. -/
def Statement (i : Instr) : Prop :=
  (encode i).length = i.length ∧ (encode i).head? = some i.opcode ∧ i.length ≤ 3 ∧ i.wellFormedAt 0#16 = true

theorem of_length {i : Instr} (h : (encode i).length = i.length) (h3 : Nat.ble i.length 3 = true) : Statement i := by
  have hle := Nat.le_of_ble_eq_true h3
  refine ⟨h, rfl, hle, ?_⟩
  simp [Instr.wellFormedAt, Config.topAddr]
  omega

theorem ldaImm (v : Byte) : Statement (.ldaImm v) := of_length rfl rfl
theorem ldaZp (z : Byte) : Statement (.ldaZp z) := of_length rfl rfl
theorem ldaZpx (z : Byte) : Statement (.ldaZpx z) := of_length rfl rfl
theorem ldaAbs (w : Addr) : Statement (.ldaAbs w) := of_length rfl rfl
theorem ldaAbsx (w : Addr) : Statement (.ldaAbsx w) := of_length rfl rfl
theorem ldaAbsy (w : Addr) : Statement (.ldaAbsy w) := of_length rfl rfl
theorem ldaIndx (z : Byte) : Statement (.ldaIndx z) := of_length rfl rfl
theorem ldaIndy (z : Byte) : Statement (.ldaIndy z) := of_length rfl rfl
theorem ldaZpi (z : Byte) : Statement (.ldaZpi z) := of_length rfl rfl
theorem ldxImm (v : Byte) : Statement (.ldxImm v) := of_length rfl rfl
theorem ldxZp (z : Byte) : Statement (.ldxZp z) := of_length rfl rfl
theorem ldxZpy (z : Byte) : Statement (.ldxZpy z) := of_length rfl rfl
theorem ldxAbs (w : Addr) : Statement (.ldxAbs w) := of_length rfl rfl
theorem ldxAbsy (w : Addr) : Statement (.ldxAbsy w) := of_length rfl rfl
theorem ldyImm (v : Byte) : Statement (.ldyImm v) := of_length rfl rfl
theorem ldyZp (z : Byte) : Statement (.ldyZp z) := of_length rfl rfl
theorem ldyZpx (z : Byte) : Statement (.ldyZpx z) := of_length rfl rfl
theorem ldyAbs (w : Addr) : Statement (.ldyAbs w) := of_length rfl rfl
theorem ldyAbsx (w : Addr) : Statement (.ldyAbsx w) := of_length rfl rfl
theorem staZp (z : Byte) : Statement (.staZp z) := of_length rfl rfl
theorem staZpx (z : Byte) : Statement (.staZpx z) := of_length rfl rfl
theorem staAbs (w : Addr) : Statement (.staAbs w) := of_length rfl rfl
theorem staAbsx (w : Addr) : Statement (.staAbsx w) := of_length rfl rfl
theorem staAbsy (w : Addr) : Statement (.staAbsy w) := of_length rfl rfl
theorem staIndx (z : Byte) : Statement (.staIndx z) := of_length rfl rfl
theorem staIndy (z : Byte) : Statement (.staIndy z) := of_length rfl rfl
theorem staZpi (z : Byte) : Statement (.staZpi z) := of_length rfl rfl
theorem stxZp (z : Byte) : Statement (.stxZp z) := of_length rfl rfl
theorem stxZpy (z : Byte) : Statement (.stxZpy z) := of_length rfl rfl
theorem stxAbs (w : Addr) : Statement (.stxAbs w) := of_length rfl rfl
theorem styZp (z : Byte) : Statement (.styZp z) := of_length rfl rfl
theorem styZpx (z : Byte) : Statement (.styZpx z) := of_length rfl rfl
theorem styAbs (w : Addr) : Statement (.styAbs w) := of_length rfl rfl
theorem stzZp (z : Byte) : Statement (.stzZp z) := of_length rfl rfl
theorem stzZpx (z : Byte) : Statement (.stzZpx z) := of_length rfl rfl
theorem stzAbs (w : Addr) : Statement (.stzAbs w) := of_length rfl rfl
theorem stzAbsx (w : Addr) : Statement (.stzAbsx w) := of_length rfl rfl
theorem adcImm (v : Byte) : Statement (.adcImm v) := of_length rfl rfl
theorem adcZp (z : Byte) : Statement (.adcZp z) := of_length rfl rfl
theorem adcZpx (z : Byte) : Statement (.adcZpx z) := of_length rfl rfl
theorem adcAbs (w : Addr) : Statement (.adcAbs w) := of_length rfl rfl
theorem adcAbsx (w : Addr) : Statement (.adcAbsx w) := of_length rfl rfl
theorem adcAbsy (w : Addr) : Statement (.adcAbsy w) := of_length rfl rfl
theorem adcIndx (z : Byte) : Statement (.adcIndx z) := of_length rfl rfl
theorem adcIndy (z : Byte) : Statement (.adcIndy z) := of_length rfl rfl
theorem adcZpi (z : Byte) : Statement (.adcZpi z) := of_length rfl rfl
theorem sbcImm (v : Byte) : Statement (.sbcImm v) := of_length rfl rfl
theorem sbcZp (z : Byte) : Statement (.sbcZp z) := of_length rfl rfl
theorem sbcZpx (z : Byte) : Statement (.sbcZpx z) := of_length rfl rfl
theorem sbcAbs (w : Addr) : Statement (.sbcAbs w) := of_length rfl rfl
theorem sbcAbsx (w : Addr) : Statement (.sbcAbsx w) := of_length rfl rfl
theorem sbcAbsy (w : Addr) : Statement (.sbcAbsy w) := of_length rfl rfl
theorem sbcIndx (z : Byte) : Statement (.sbcIndx z) := of_length rfl rfl
theorem sbcIndy (z : Byte) : Statement (.sbcIndy z) := of_length rfl rfl
theorem sbcZpi (z : Byte) : Statement (.sbcZpi z) := of_length rfl rfl
theorem incZp (z : Byte) : Statement (.incZp z) := of_length rfl rfl
theorem incZpx (z : Byte) : Statement (.incZpx z) := of_length rfl rfl
theorem incAbs (w : Addr) : Statement (.incAbs w) := of_length rfl rfl
theorem incAbsx (w : Addr) : Statement (.incAbsx w) := of_length rfl rfl
theorem decZp (z : Byte) : Statement (.decZp z) := of_length rfl rfl
theorem decZpx (z : Byte) : Statement (.decZpx z) := of_length rfl rfl
theorem decAbs (w : Addr) : Statement (.decAbs w) := of_length rfl rfl
theorem decAbsx (w : Addr) : Statement (.decAbsx w) := of_length rfl rfl
theorem inx : Statement (.inx) := of_length rfl rfl
theorem iny : Statement (.iny) := of_length rfl rfl
theorem dex : Statement (.dex) := of_length rfl rfl
theorem dey : Statement (.dey) := of_length rfl rfl
theorem andImm (v : Byte) : Statement (.andImm v) := of_length rfl rfl
theorem andZp (z : Byte) : Statement (.andZp z) := of_length rfl rfl
theorem andZpx (z : Byte) : Statement (.andZpx z) := of_length rfl rfl
theorem andAbs (w : Addr) : Statement (.andAbs w) := of_length rfl rfl
theorem andAbsx (w : Addr) : Statement (.andAbsx w) := of_length rfl rfl
theorem andAbsy (w : Addr) : Statement (.andAbsy w) := of_length rfl rfl
theorem andIndx (z : Byte) : Statement (.andIndx z) := of_length rfl rfl
theorem andIndy (z : Byte) : Statement (.andIndy z) := of_length rfl rfl
theorem andZpi (z : Byte) : Statement (.andZpi z) := of_length rfl rfl
theorem oraImm (v : Byte) : Statement (.oraImm v) := of_length rfl rfl
theorem oraZp (z : Byte) : Statement (.oraZp z) := of_length rfl rfl
theorem oraZpx (z : Byte) : Statement (.oraZpx z) := of_length rfl rfl
theorem oraAbs (w : Addr) : Statement (.oraAbs w) := of_length rfl rfl
theorem oraAbsx (w : Addr) : Statement (.oraAbsx w) := of_length rfl rfl
theorem oraAbsy (w : Addr) : Statement (.oraAbsy w) := of_length rfl rfl
theorem oraIndx (z : Byte) : Statement (.oraIndx z) := of_length rfl rfl
theorem oraIndy (z : Byte) : Statement (.oraIndy z) := of_length rfl rfl
theorem oraZpi (z : Byte) : Statement (.oraZpi z) := of_length rfl rfl
theorem eorImm (v : Byte) : Statement (.eorImm v) := of_length rfl rfl
theorem eorZp (z : Byte) : Statement (.eorZp z) := of_length rfl rfl
theorem eorZpx (z : Byte) : Statement (.eorZpx z) := of_length rfl rfl
theorem eorAbs (w : Addr) : Statement (.eorAbs w) := of_length rfl rfl
theorem eorAbsx (w : Addr) : Statement (.eorAbsx w) := of_length rfl rfl
theorem eorAbsy (w : Addr) : Statement (.eorAbsy w) := of_length rfl rfl
theorem eorIndx (z : Byte) : Statement (.eorIndx z) := of_length rfl rfl
theorem eorIndy (z : Byte) : Statement (.eorIndy z) := of_length rfl rfl
theorem eorZpi (z : Byte) : Statement (.eorZpi z) := of_length rfl rfl
theorem aslAcc : Statement (.aslAcc) := of_length rfl rfl
theorem aslZp (z : Byte) : Statement (.aslZp z) := of_length rfl rfl
theorem aslZpx (z : Byte) : Statement (.aslZpx z) := of_length rfl rfl
theorem aslAbs (w : Addr) : Statement (.aslAbs w) := of_length rfl rfl
theorem aslAbsx (w : Addr) : Statement (.aslAbsx w) := of_length rfl rfl
theorem lsrAcc : Statement (.lsrAcc) := of_length rfl rfl
theorem lsrZp (z : Byte) : Statement (.lsrZp z) := of_length rfl rfl
theorem lsrZpx (z : Byte) : Statement (.lsrZpx z) := of_length rfl rfl
theorem lsrAbs (w : Addr) : Statement (.lsrAbs w) := of_length rfl rfl
theorem lsrAbsx (w : Addr) : Statement (.lsrAbsx w) := of_length rfl rfl
theorem rolAcc : Statement (.rolAcc) := of_length rfl rfl
theorem rolZp (z : Byte) : Statement (.rolZp z) := of_length rfl rfl
theorem rolZpx (z : Byte) : Statement (.rolZpx z) := of_length rfl rfl
theorem rolAbs (w : Addr) : Statement (.rolAbs w) := of_length rfl rfl
theorem rolAbsx (w : Addr) : Statement (.rolAbsx w) := of_length rfl rfl
theorem rorAcc : Statement (.rorAcc) := of_length rfl rfl
theorem rorZp (z : Byte) : Statement (.rorZp z) := of_length rfl rfl
theorem rorZpx (z : Byte) : Statement (.rorZpx z) := of_length rfl rfl
theorem rorAbs (w : Addr) : Statement (.rorAbs w) := of_length rfl rfl
theorem rorAbsx (w : Addr) : Statement (.rorAbsx w) := of_length rfl rfl
theorem cmpImm (v : Byte) : Statement (.cmpImm v) := of_length rfl rfl
theorem cmpZp (z : Byte) : Statement (.cmpZp z) := of_length rfl rfl
theorem cmpZpx (z : Byte) : Statement (.cmpZpx z) := of_length rfl rfl
theorem cmpAbs (w : Addr) : Statement (.cmpAbs w) := of_length rfl rfl
theorem cmpAbsx (w : Addr) : Statement (.cmpAbsx w) := of_length rfl rfl
theorem cmpAbsy (w : Addr) : Statement (.cmpAbsy w) := of_length rfl rfl
theorem cmpIndx (z : Byte) : Statement (.cmpIndx z) := of_length rfl rfl
theorem cmpIndy (z : Byte) : Statement (.cmpIndy z) := of_length rfl rfl
theorem cmpZpi (z : Byte) : Statement (.cmpZpi z) := of_length rfl rfl
theorem cpxImm (v : Byte) : Statement (.cpxImm v) := of_length rfl rfl
theorem cpxZp (z : Byte) : Statement (.cpxZp z) := of_length rfl rfl
theorem cpxAbs (w : Addr) : Statement (.cpxAbs w) := of_length rfl rfl
theorem cpyImm (v : Byte) : Statement (.cpyImm v) := of_length rfl rfl
theorem cpyZp (z : Byte) : Statement (.cpyZp z) := of_length rfl rfl
theorem cpyAbs (w : Addr) : Statement (.cpyAbs w) := of_length rfl rfl
theorem bcc (d : Byte) : Statement (.bcc d) := of_length rfl rfl
theorem bcs (d : Byte) : Statement (.bcs d) := of_length rfl rfl
theorem beq (d : Byte) : Statement (.beq d) := of_length rfl rfl
theorem bne (d : Byte) : Statement (.bne d) := of_length rfl rfl
theorem bmi (d : Byte) : Statement (.bmi d) := of_length rfl rfl
theorem bpl (d : Byte) : Statement (.bpl d) := of_length rfl rfl
theorem bvc (d : Byte) : Statement (.bvc d) := of_length rfl rfl
theorem bvs (d : Byte) : Statement (.bvs d) := of_length rfl rfl
theorem bra (d : Byte) : Statement (.bra d) := of_length rfl rfl
theorem clc : Statement (.clc) := of_length rfl rfl
theorem sec : Statement (.sec) := of_length rfl rfl
theorem cld : Statement (.cld) := of_length rfl rfl
theorem sed : Statement (.sed) := of_length rfl rfl
theorem cli : Statement (.cli) := of_length rfl rfl
theorem sei : Statement (.sei) := of_length rfl rfl
theorem clv : Statement (.clv) := of_length rfl rfl
theorem pha : Statement (.pha) := of_length rfl rfl
theorem php : Statement (.php) := of_length rfl rfl
theorem phx : Statement (.phx) := of_length rfl rfl
theorem phy : Statement (.phy) := of_length rfl rfl
theorem pla : Statement (.pla) := of_length rfl rfl
theorem plp : Statement (.plp) := of_length rfl rfl
theorem plx : Statement (.plx) := of_length rfl rfl
theorem ply : Statement (.ply) := of_length rfl rfl
theorem tsx : Statement (.tsx) := of_length rfl rfl
theorem txs : Statement (.txs) := of_length rfl rfl
theorem tsbZp (z : Byte) : Statement (.tsbZp z) := of_length rfl rfl
theorem tsbAbs (w : Addr) : Statement (.tsbAbs w) := of_length rfl rfl
theorem trbZp (z : Byte) : Statement (.trbZp z) := of_length rfl rfl
theorem trbAbs (w : Addr) : Statement (.trbAbs w) := of_length rfl rfl
theorem jmp (w : Addr) : Statement (.jmp w) := of_length rfl rfl
theorem brk : Statement (.brk) := of_length rfl rfl
theorem nop : Statement (.nop) := of_length rfl rfl
theorem rti : Statement (.rti) := of_length rfl rfl

end Sys2Proof.Laws.EncodingShape
end

