-- ==== Sys2Proof/Tests/Slice0.lean ====
section
/-! SUPPORT. Tests. Expected values are the spec's: words written out from the encodings of spec/30_encoding.md (R71, R74), one-step
vectors V1 to V102 and H1 to H8 of spec/95_test_vectors.md. Then one witness for each hypothesis of the obligations. -/

namespace Sys2Proof.Tests

open Sys2Proof Sys2Proof.Machine

/-! ## Decoding: every row of the opcode table, by its word (bits 7 to 0 the opcode byte; operand byte 0x42, operand word
0x1234, displacement 0xFE) -/

theorem test_decode_load :
    decodeTableWord 16 0x42A9 = some (.ldaImm 0x42#8) ∧
    decodeTableWord 16 0x42A5 = some (.ldaZp 0x42#8) ∧
    decodeTableWord 16 0x42B5 = some (.ldaZpx 0x42#8) ∧
    decodeTableWord 24 0x1234AD = some (.ldaAbs 0x1234#16) ∧
    decodeTableWord 24 0x1234BD = some (.ldaAbsx 0x1234#16) ∧
    decodeTableWord 24 0x1234B9 = some (.ldaAbsy 0x1234#16) ∧
    decodeTableWord 16 0x42A1 = some (.ldaIndx 0x42#8) ∧
    decodeTableWord 16 0x42B1 = some (.ldaIndy 0x42#8) ∧
    decodeTableWord 16 0x42B2 = some (.ldaZpi 0x42#8) ∧
    decodeTableWord 16 0x42A2 = some (.ldxImm 0x42#8) ∧
    decodeTableWord 16 0x42A6 = some (.ldxZp 0x42#8) ∧
    decodeTableWord 16 0x42B6 = some (.ldxZpy 0x42#8) ∧
    decodeTableWord 24 0x1234AE = some (.ldxAbs 0x1234#16) ∧
    decodeTableWord 24 0x1234BE = some (.ldxAbsy 0x1234#16) ∧
    decodeTableWord 16 0x42A0 = some (.ldyImm 0x42#8) ∧
    decodeTableWord 16 0x42A4 = some (.ldyZp 0x42#8) ∧
    decodeTableWord 16 0x42B4 = some (.ldyZpx 0x42#8) ∧
    decodeTableWord 24 0x1234AC = some (.ldyAbs 0x1234#16) ∧
    decodeTableWord 24 0x1234BC = some (.ldyAbsx 0x1234#16) := by decide

theorem test_decode_store :
    decodeTableWord 16 0x4285 = some (.staZp 0x42#8) ∧
    decodeTableWord 16 0x4295 = some (.staZpx 0x42#8) ∧
    decodeTableWord 24 0x12348D = some (.staAbs 0x1234#16) ∧
    decodeTableWord 24 0x12349D = some (.staAbsx 0x1234#16) ∧
    decodeTableWord 24 0x123499 = some (.staAbsy 0x1234#16) ∧
    decodeTableWord 16 0x4281 = some (.staIndx 0x42#8) ∧
    decodeTableWord 16 0x4291 = some (.staIndy 0x42#8) ∧
    decodeTableWord 16 0x4292 = some (.staZpi 0x42#8) ∧
    decodeTableWord 16 0x4286 = some (.stxZp 0x42#8) ∧
    decodeTableWord 16 0x4296 = some (.stxZpy 0x42#8) ∧
    decodeTableWord 24 0x12348E = some (.stxAbs 0x1234#16) ∧
    decodeTableWord 16 0x4284 = some (.styZp 0x42#8) ∧
    decodeTableWord 16 0x4294 = some (.styZpx 0x42#8) ∧
    decodeTableWord 24 0x12348C = some (.styAbs 0x1234#16) ∧
    decodeTableWord 16 0x4264 = some (.stzZp 0x42#8) ∧
    decodeTableWord 16 0x4274 = some (.stzZpx 0x42#8) ∧
    decodeTableWord 24 0x12349C = some (.stzAbs 0x1234#16) ∧
    decodeTableWord 24 0x12349E = some (.stzAbsx 0x1234#16) := by decide

theorem test_decode_arithmetic :
    decodeTableWord 16 0x4269 = some (.adcImm 0x42#8) ∧
    decodeTableWord 16 0x4265 = some (.adcZp 0x42#8) ∧
    decodeTableWord 16 0x4275 = some (.adcZpx 0x42#8) ∧
    decodeTableWord 24 0x12346D = some (.adcAbs 0x1234#16) ∧
    decodeTableWord 24 0x12347D = some (.adcAbsx 0x1234#16) ∧
    decodeTableWord 24 0x123479 = some (.adcAbsy 0x1234#16) ∧
    decodeTableWord 16 0x4261 = some (.adcIndx 0x42#8) ∧
    decodeTableWord 16 0x4271 = some (.adcIndy 0x42#8) ∧
    decodeTableWord 16 0x4272 = some (.adcZpi 0x42#8) ∧
    decodeTableWord 16 0x42E9 = some (.sbcImm 0x42#8) ∧
    decodeTableWord 16 0x42E5 = some (.sbcZp 0x42#8) ∧
    decodeTableWord 16 0x42F5 = some (.sbcZpx 0x42#8) ∧
    decodeTableWord 24 0x1234ED = some (.sbcAbs 0x1234#16) ∧
    decodeTableWord 24 0x1234FD = some (.sbcAbsx 0x1234#16) ∧
    decodeTableWord 24 0x1234F9 = some (.sbcAbsy 0x1234#16) ∧
    decodeTableWord 16 0x42E1 = some (.sbcIndx 0x42#8) ∧
    decodeTableWord 16 0x42F1 = some (.sbcIndy 0x42#8) ∧
    decodeTableWord 16 0x42F2 = some (.sbcZpi 0x42#8) := by decide

theorem test_decode_incdec :
    decodeTableWord 16 0x42E6 = some (.incZp 0x42#8) ∧
    decodeTableWord 16 0x42F6 = some (.incZpx 0x42#8) ∧
    decodeTableWord 24 0x1234EE = some (.incAbs 0x1234#16) ∧
    decodeTableWord 24 0x1234FE = some (.incAbsx 0x1234#16) ∧
    decodeTableWord 16 0x42C6 = some (.decZp 0x42#8) ∧
    decodeTableWord 16 0x42D6 = some (.decZpx 0x42#8) ∧
    decodeTableWord 24 0x1234CE = some (.decAbs 0x1234#16) ∧
    decodeTableWord 24 0x1234DE = some (.decAbsx 0x1234#16) ∧
    decodeTableWord 8 0xE8 = some .inx ∧
    decodeTableWord 8 0xC8 = some .iny ∧
    decodeTableWord 8 0xCA = some .dex ∧
    decodeTableWord 8 0x88 = some .dey := by decide

theorem test_decode_logic :
    decodeTableWord 16 0x4229 = some (.andImm 0x42#8) ∧
    decodeTableWord 16 0x4225 = some (.andZp 0x42#8) ∧
    decodeTableWord 16 0x4235 = some (.andZpx 0x42#8) ∧
    decodeTableWord 24 0x12342D = some (.andAbs 0x1234#16) ∧
    decodeTableWord 24 0x12343D = some (.andAbsx 0x1234#16) ∧
    decodeTableWord 24 0x123439 = some (.andAbsy 0x1234#16) ∧
    decodeTableWord 16 0x4221 = some (.andIndx 0x42#8) ∧
    decodeTableWord 16 0x4231 = some (.andIndy 0x42#8) ∧
    decodeTableWord 16 0x4232 = some (.andZpi 0x42#8) ∧
    decodeTableWord 16 0x4209 = some (.oraImm 0x42#8) ∧
    decodeTableWord 16 0x4205 = some (.oraZp 0x42#8) ∧
    decodeTableWord 16 0x4215 = some (.oraZpx 0x42#8) ∧
    decodeTableWord 24 0x12340D = some (.oraAbs 0x1234#16) ∧
    decodeTableWord 24 0x12341D = some (.oraAbsx 0x1234#16) ∧
    decodeTableWord 24 0x123419 = some (.oraAbsy 0x1234#16) ∧
    decodeTableWord 16 0x4201 = some (.oraIndx 0x42#8) ∧
    decodeTableWord 16 0x4211 = some (.oraIndy 0x42#8) ∧
    decodeTableWord 16 0x4212 = some (.oraZpi 0x42#8) ∧
    decodeTableWord 16 0x4249 = some (.eorImm 0x42#8) ∧
    decodeTableWord 16 0x4245 = some (.eorZp 0x42#8) ∧
    decodeTableWord 16 0x4255 = some (.eorZpx 0x42#8) ∧
    decodeTableWord 24 0x12344D = some (.eorAbs 0x1234#16) ∧
    decodeTableWord 24 0x12345D = some (.eorAbsx 0x1234#16) ∧
    decodeTableWord 24 0x123459 = some (.eorAbsy 0x1234#16) ∧
    decodeTableWord 16 0x4241 = some (.eorIndx 0x42#8) ∧
    decodeTableWord 16 0x4251 = some (.eorIndy 0x42#8) ∧
    decodeTableWord 16 0x4252 = some (.eorZpi 0x42#8) := by decide

theorem test_decode_shift :
    decodeTableWord 8 0x0A = some .aslAcc ∧
    decodeTableWord 16 0x4206 = some (.aslZp 0x42#8) ∧
    decodeTableWord 16 0x4216 = some (.aslZpx 0x42#8) ∧
    decodeTableWord 24 0x12340E = some (.aslAbs 0x1234#16) ∧
    decodeTableWord 24 0x12341E = some (.aslAbsx 0x1234#16) ∧
    decodeTableWord 8 0x4A = some .lsrAcc ∧
    decodeTableWord 16 0x4246 = some (.lsrZp 0x42#8) ∧
    decodeTableWord 16 0x4256 = some (.lsrZpx 0x42#8) ∧
    decodeTableWord 24 0x12344E = some (.lsrAbs 0x1234#16) ∧
    decodeTableWord 24 0x12345E = some (.lsrAbsx 0x1234#16) ∧
    decodeTableWord 8 0x2A = some .rolAcc ∧
    decodeTableWord 16 0x4226 = some (.rolZp 0x42#8) ∧
    decodeTableWord 16 0x4236 = some (.rolZpx 0x42#8) ∧
    decodeTableWord 24 0x12342E = some (.rolAbs 0x1234#16) ∧
    decodeTableWord 24 0x12343E = some (.rolAbsx 0x1234#16) ∧
    decodeTableWord 8 0x6A = some .rorAcc ∧
    decodeTableWord 16 0x4266 = some (.rorZp 0x42#8) ∧
    decodeTableWord 16 0x4276 = some (.rorZpx 0x42#8) ∧
    decodeTableWord 24 0x12346E = some (.rorAbs 0x1234#16) ∧
    decodeTableWord 24 0x12347E = some (.rorAbsx 0x1234#16) := by decide

theorem test_decode_compare :
    decodeTableWord 16 0x42C9 = some (.cmpImm 0x42#8) ∧
    decodeTableWord 16 0x42C5 = some (.cmpZp 0x42#8) ∧
    decodeTableWord 16 0x42D5 = some (.cmpZpx 0x42#8) ∧
    decodeTableWord 24 0x1234CD = some (.cmpAbs 0x1234#16) ∧
    decodeTableWord 24 0x1234DD = some (.cmpAbsx 0x1234#16) ∧
    decodeTableWord 24 0x1234D9 = some (.cmpAbsy 0x1234#16) ∧
    decodeTableWord 16 0x42C1 = some (.cmpIndx 0x42#8) ∧
    decodeTableWord 16 0x42D1 = some (.cmpIndy 0x42#8) ∧
    decodeTableWord 16 0x42D2 = some (.cmpZpi 0x42#8) ∧
    decodeTableWord 16 0x42E0 = some (.cpxImm 0x42#8) ∧
    decodeTableWord 16 0x42E4 = some (.cpxZp 0x42#8) ∧
    decodeTableWord 24 0x1234EC = some (.cpxAbs 0x1234#16) ∧
    decodeTableWord 16 0x42C0 = some (.cpyImm 0x42#8) ∧
    decodeTableWord 16 0x42C4 = some (.cpyZp 0x42#8) ∧
    decodeTableWord 24 0x1234CC = some (.cpyAbs 0x1234#16) := by decide

theorem test_decode_branch :
    decodeTableWord 16 0xFE90 = some (.bcc 0xFE#8) ∧
    decodeTableWord 16 0xFEB0 = some (.bcs 0xFE#8) ∧
    decodeTableWord 16 0xFEF0 = some (.beq 0xFE#8) ∧
    decodeTableWord 16 0xFED0 = some (.bne 0xFE#8) ∧
    decodeTableWord 16 0xFE30 = some (.bmi 0xFE#8) ∧
    decodeTableWord 16 0xFE10 = some (.bpl 0xFE#8) ∧
    decodeTableWord 16 0xFE50 = some (.bvc 0xFE#8) ∧
    decodeTableWord 16 0xFE70 = some (.bvs 0xFE#8) ∧
    decodeTableWord 16 0xFE80 = some (.bra 0xFE#8) := by decide

theorem test_decode_flags :
    decodeTableWord 8 0x18 = some .clc ∧
    decodeTableWord 8 0x38 = some .sec ∧
    decodeTableWord 8 0xD8 = some .cld ∧
    decodeTableWord 8 0xF8 = some .sed ∧
    decodeTableWord 8 0x58 = some .cli ∧
    decodeTableWord 8 0x78 = some .sei ∧
    decodeTableWord 8 0xB8 = some .clv := by decide

theorem test_decode_stack :
    decodeTableWord 8 0x48 = some .pha ∧
    decodeTableWord 8 0x08 = some .php ∧
    decodeTableWord 8 0xDA = some .phx ∧
    decodeTableWord 8 0x5A = some .phy ∧
    decodeTableWord 8 0x68 = some .pla ∧
    decodeTableWord 8 0x28 = some .plp ∧
    decodeTableWord 8 0xFA = some .plx ∧
    decodeTableWord 8 0x7A = some .ply ∧
    decodeTableWord 8 0xBA = some .tsx ∧
    decodeTableWord 8 0x9A = some .txs := by decide

theorem test_decode_bits :
    decodeTableWord 16 0x4204 = some (.tsbZp 0x42#8) ∧
    decodeTableWord 24 0x12340C = some (.tsbAbs 0x1234#16) ∧
    decodeTableWord 16 0x4214 = some (.trbZp 0x42#8) ∧
    decodeTableWord 24 0x12341C = some (.trbAbs 0x1234#16) := by decide

theorem test_decode_control :
    decodeTableWord 24 0x12344C = some (.jmp 0x1234#16) ∧
    decodeTableWord 8 0x00 = some .brk ∧
    decodeTableWord 8 0xEA = some .nop ∧
    decodeTableWord 8 0x40 = some .rti := by decide

/-- R80: bytes of instructions this machine lacks (0xAA, 0x20, 0x60, 0x7C, 0xFF) decode to nothing. -/
theorem test_decode_unassigned :
    decodeTableWord 8 0xAA = none ∧ decodeTableWord 24 0x030020 = none ∧ decodeTableWord 8 0x60 = none ∧
    decodeTableWord 24 0x12347C = none ∧ decodeTableWord 8 0xFF = none := by decide

/-- R70: a list that ends inside an instruction is not one. -/
theorem test_decode_truncated :
    decode [0xA9#8] = .error .truncated ∧ decode [0x4C#8, 0x34#8] = .error .truncated ∧ decode [] = .error .truncated ∧
    decode [0x02#8] = .error (.unassigned 0x02#8) := ⟨rfl, rfl, rfl, rfl⟩

/-! ## Well-formedness: each check with a term it refuses and the last it accepts -/

theorem test_wellFormedAt_refuses_a_byte_at_the_top :
    Instr.nop.wellFormedAt 0xFFFF#16 = false ∧ (Instr.ldaImm 0x42#8).wellFormedAt 0xFFFE#16 = false ∧
    (Instr.jmp 0x1234#16).wellFormedAt 0xFFFD#16 = false := by decide

theorem test_wellFormedAt_accepts_below_the_top :
    Instr.nop.wellFormedAt 0xFFFE#16 = true ∧ (Instr.ldaImm 0x42#8).wellFormedAt 0xFFFD#16 = true ∧
    (Instr.jmp 0x1234#16).wellFormedAt 0xFFFC#16 = true := by decide

theorem test_imageWellFormed_refuses_oversize : imageWellFormed (List.replicate 65537 0xEA#8) = false := by
  rw [imageWellFormed, List.length_replicate]
  decide

theorem test_imageWellFormed_accepts_full : imageWellFormed (List.replicate 65536 0xEA#8) = true := by
  rw [imageWellFormed, List.length_replicate]
  decide

/-! ## One step -/

/-- A state with those registers, PC and bytes, IC 0. -/
def loaded (regs : Byte × Byte × Byte × Byte × Byte) (pc : Addr) (cells : Memory) : State :=
  { State.reset with a := regs.1, x := regs.2.1, y := regs.2.2.1, sp := regs.2.2.2.1, p := regs.2.2.2.2, pc := pc, mem := cells }

/-- What a vector's "end" column shows. -/
structure Seen where
  outcome : StepOutcome
  a : Byte
  x : Byte
  y : Byte
  sp : Byte
  p : Byte
  pc : Addr
  ic : Nat
  bytes : List Byte
deriving DecidableEq, Repr

/-- The end of a step, with the bytes at some addresses. -/
def shown (addrs : List Addr) : Option (StepOutcome × State) → Option Seen
  | none => none
  | some (o, s) => some ⟨o, s.a, s.x, s.y, s.sp, s.p, s.pc, s.ic, addrs.map s.byteAt⟩

/-- V2: LDA #$80. -/
theorem test_V2_ldaImm :
    shown [] (singleStep (loaded (0x00, 0x00, 0x00, 0xFF, 0x02) 0x0200 [(0x0200, 0xA9), (0x0201, 0x80)])) =
      some ⟨.running, 0x80, 0x00, 0x00, 0xFF, 0x80, 0x0202, 1, []⟩ := by decide

/-- V3: LDA $F0,X wraps in page zero. -/
theorem test_V3_ldaZpx :
    shown [] (singleStep (loaded (0x00, 0x20, 0x00, 0xFF, 0x00) 0x0200
        [(0x0010, 0x7F), (0x0110, 0xEE), (0x0200, 0xB5), (0x0201, 0xF0)])) =
      some ⟨.running, 0x7F, 0x20, 0x00, 0xFF, 0x00, 0x0202, 1, []⟩ := by decide

/-- V4: LDA $12FF,X crosses page. -/
theorem test_V4_ldaAbsx :
    shown [] (singleStep (loaded (0x00, 0x01, 0x00, 0xFF, 0x00) 0x0200
        [(0x0200, 0xBD), (0x0201, 0xFF), (0x0202, 0x12), (0x1300, 0x99)])) =
      some ⟨.running, 0x99, 0x01, 0x00, 0xFF, 0x80, 0x0203, 1, []⟩ := by decide

/-- V5: LDA $FFFF,Y wraps at 16 bits. -/
theorem test_V5_ldaAbsy :
    shown [] (singleStep (loaded (0x00, 0x00, 0x02, 0xFF, 0x00) 0x0200
        [(0x0001, 0x5A), (0x0200, 0xB9), (0x0201, 0xFF), (0x0202, 0xFF)])) =
      some ⟨.running, 0x5A, 0x00, 0x02, 0xFF, 0x00, 0x0203, 1, []⟩ := by decide

/-- V6: LDA ($FE,X) pointer at $FF wraps. -/
theorem test_V6_ldaIndx :
    shown [] (singleStep (loaded (0x00, 0x01, 0x00, 0xFF, 0x00) 0x0200
        [(0x0000, 0x12), (0x00FF, 0x34), (0x0100, 0x77), (0x0200, 0xA1), (0x0201, 0xFE), (0x1234, 0xC3)])) =
      some ⟨.running, 0xC3, 0x01, 0x00, 0xFF, 0x80, 0x0202, 1, []⟩ := by decide

/-- V7: LDA ($40),Y. -/
theorem test_V7_ldaIndy :
    shown [] (singleStep (loaded (0x00, 0x00, 0x20, 0xFF, 0x00) 0x0200
        [(0x0040, 0xF0), (0x0041, 0x02), (0x0200, 0xB1), (0x0201, 0x40), (0x0310, 0x01)])) =
      some ⟨.running, 0x01, 0x00, 0x20, 0xFF, 0x00, 0x0202, 1, []⟩ := by decide

/-- V8: LDA ($40). -/
theorem test_V8_ldaZpi :
    shown [] (singleStep (loaded (0x00, 0x00, 0x20, 0xFF, 0x00) 0x0200
        [(0x0040, 0x34), (0x0041, 0x12), (0x0200, 0xB2), (0x0201, 0x40), (0x1234, 0x00)])) =
      some ⟨.running, 0x00, 0x00, 0x20, 0xFF, 0x02, 0x0202, 1, []⟩ := by decide

/-- V9: LDX $10,Y. -/
theorem test_V9_ldxZpy :
    shown [] (singleStep (loaded (0x00, 0x00, 0x02, 0xFF, 0x00) 0x0200 [(0x0012, 0x80), (0x0200, 0xB6), (0x0201, 0x10)])) =
      some ⟨.running, 0x00, 0x80, 0x02, 0xFF, 0x80, 0x0202, 1, []⟩ := by decide

/-- V10: LDY $0300,X. -/
theorem test_V10_ldyAbsx :
    shown [] (singleStep (loaded (0x00, 0x05, 0x00, 0xFF, 0x00) 0x0200
        [(0x0200, 0xBC), (0x0201, 0x00), (0x0202, 0x03), (0x0305, 0x01)])) =
      some ⟨.running, 0x00, 0x05, 0x01, 0xFF, 0x00, 0x0203, 1, []⟩ := by decide

/-- V11: STA ($40),Y. -/
theorem test_V11_staIndy :
    shown [0x0300] (singleStep (loaded (0xAB, 0x00, 0x01, 0xFF, 0x83) 0x0200
        [(0x0040, 0xFF), (0x0041, 0x02), (0x0200, 0x91), (0x0201, 0x40)])) =
      some ⟨.running, 0xAB, 0x00, 0x01, 0xFF, 0x83, 0x0202, 1, [0xAB]⟩ := by decide

/-- V12: STX $01,Y. -/
theorem test_V12_stxZpy :
    shown [0x0000, 0x0100] (singleStep (loaded (0x00, 0x07, 0xFF, 0xFF, 0x00) 0x0200 [(0x0100, 0x00), (0x0200, 0x96), (0x0201, 0x01)])) =
      some ⟨.running, 0x00, 0x07, 0xFF, 0xFF, 0x00, 0x0202, 1, [0x07, 0x00]⟩ := by decide

/-- V13: STY $0300. -/
theorem test_V13_styAbs :
    shown [0x0300] (singleStep (loaded (0x00, 0x00, 0x33, 0xFF, 0x00) 0x0200 [(0x0200, 0x8C), (0x0201, 0x00), (0x0202, 0x03)])) =
      some ⟨.running, 0x00, 0x00, 0x33, 0xFF, 0x00, 0x0203, 1, [0x33]⟩ := by decide

/-- V14: STZ $0300,X. -/
theorem test_V14_stzAbsx :
    shown [0x0310] (singleStep (loaded (0x00, 0x10, 0x00, 0xFF, 0x00) 0x0200
        [(0x0200, 0x9E), (0x0201, 0x00), (0x0202, 0x03), (0x0310, 0x55)])) =
      some ⟨.running, 0x00, 0x10, 0x00, 0xFF, 0x00, 0x0203, 1, [0x00]⟩ := by decide

/-- V18: ADC #$80. -/
theorem test_V18_adcImm :
    shown [] (singleStep (loaded (0x80, 0x00, 0x00, 0xFF, 0x00) 0x0200 [(0x0200, 0x69), (0x0201, 0x80)])) =
      some ⟨.running, 0x00, 0x00, 0x00, 0xFF, 0x43, 0x0202, 1, []⟩ := by decide

/-- V21: ADC #$01. -/
theorem test_V21_adcImm :
    shown [] (singleStep (loaded (0x09, 0x00, 0x00, 0xFF, 0x08) 0x0200 [(0x0200, 0x69), (0x0201, 0x01)])) =
      some ⟨.running, 0x0A, 0x00, 0x00, 0xFF, 0x08, 0x0202, 1, []⟩ := by decide

/-- V23: SBC #$50. -/
theorem test_V23_sbcImm :
    shown [] (singleStep (loaded (0x50, 0x00, 0x00, 0xFF, 0x00) 0x0200 [(0x0200, 0xE9), (0x0201, 0x50)])) =
      some ⟨.running, 0xFF, 0x00, 0x00, 0xFF, 0x80, 0x0202, 1, []⟩ := by decide

/-- V25: SBC #$01. -/
theorem test_V25_sbcImm :
    shown [] (singleStep (loaded (0x80, 0x00, 0x00, 0xFF, 0x01) 0x0200 [(0x0200, 0xE9), (0x0201, 0x01)])) =
      some ⟨.running, 0x7F, 0x00, 0x00, 0xFF, 0x41, 0x0202, 1, []⟩ := by decide

/-- V29: INC $20 (FFto00). -/
theorem test_V29_incZp :
    shown [0x0020] (singleStep (loaded (0x00, 0x00, 0x00, 0xFF, 0x01) 0x0200 [(0x0020, 0xFF), (0x0200, 0xE6), (0x0201, 0x20)])) =
      some ⟨.running, 0x00, 0x00, 0x00, 0xFF, 0x03, 0x0202, 1, [0x00]⟩ := by decide

/-- V30: INC $0300,X (7Fto80). -/
theorem test_V30_incAbsx :
    shown [0x0301] (singleStep (loaded (0x00, 0x01, 0x00, 0xFF, 0x40) 0x0200
        [(0x0200, 0xFE), (0x0201, 0x00), (0x0202, 0x03), (0x0301, 0x7F)])) =
      some ⟨.running, 0x00, 0x01, 0x00, 0xFF, 0xC0, 0x0203, 1, [0x80]⟩ := by decide

/-- V31: DEC $30 (00toFF). -/
theorem test_V31_decZp :
    shown [0x0030] (singleStep (loaded (0x00, 0x00, 0x00, 0xFF, 0x00) 0x0200 [(0x0030, 0x00), (0x0200, 0xC6), (0x0201, 0x30)])) =
      some ⟨.running, 0x00, 0x00, 0x00, 0xFF, 0x80, 0x0202, 1, [0xFF]⟩ := by decide

/-- V32: DEC $30,X (01to00). -/
theorem test_V32_decZpx :
    shown [0x0000] (singleStep (loaded (0x00, 0xD0, 0x00, 0xFF, 0x00) 0x0200 [(0x0000, 0x01), (0x0200, 0xD6), (0x0201, 0x30)])) =
      some ⟨.running, 0x00, 0xD0, 0x00, 0xFF, 0x02, 0x0202, 1, [0x00]⟩ := by decide

/-- V33: INX. -/
theorem test_V33_inx :
    shown [] (singleStep (loaded (0x00, 0xFF, 0x00, 0xFF, 0x01) 0x0200 [(0x0200, 0xE8)])) =
      some ⟨.running, 0x00, 0x00, 0x00, 0xFF, 0x03, 0x0201, 1, []⟩ := by decide

/-- V34: INY. -/
theorem test_V34_iny :
    shown [] (singleStep (loaded (0x00, 0x00, 0x7F, 0xFF, 0x00) 0x0200 [(0x0200, 0xC8)])) =
      some ⟨.running, 0x00, 0x00, 0x80, 0xFF, 0x80, 0x0201, 1, []⟩ := by decide

/-- V35: DEX. -/
theorem test_V35_dex :
    shown [] (singleStep (loaded (0x00, 0x01, 0x00, 0xFF, 0x80) 0x0200 [(0x0200, 0xCA)])) =
      some ⟨.running, 0x00, 0x00, 0x00, 0xFF, 0x02, 0x0201, 1, []⟩ := by decide

/-- V36: DEY. -/
theorem test_V36_dey :
    shown [] (singleStep (loaded (0x00, 0x00, 0x00, 0xFF, 0x00) 0x0200 [(0x0200, 0x88)])) =
      some ⟨.running, 0x00, 0x00, 0xFF, 0xFF, 0x80, 0x0201, 1, []⟩ := by decide

/-- V37: AND #$F0. -/
theorem test_V37_andImm :
    shown [] (singleStep (loaded (0x0F, 0x00, 0x00, 0xFF, 0x01) 0x0200 [(0x0200, 0x29), (0x0201, 0xF0)])) =
      some ⟨.running, 0x00, 0x00, 0x00, 0xFF, 0x03, 0x0202, 1, []⟩ := by decide

/-- V38: ORA #$80. -/
theorem test_V38_oraImm :
    shown [] (singleStep (loaded (0x0F, 0x00, 0x00, 0xFF, 0x00) 0x0200 [(0x0200, 0x09), (0x0201, 0x80)])) =
      some ⟨.running, 0x8F, 0x00, 0x00, 0xFF, 0x80, 0x0202, 1, []⟩ := by decide

/-- V39: EOR #$FF. -/
theorem test_V39_eorImm :
    shown [] (singleStep (loaded (0xAA, 0x00, 0x00, 0xFF, 0x80) 0x0200 [(0x0200, 0x49), (0x0201, 0xFF)])) =
      some ⟨.running, 0x55, 0x00, 0x00, 0xFF, 0x00, 0x0202, 1, []⟩ := by decide

/-- V40: EOR $20 (equal). -/
theorem test_V40_eorZp :
    shown [] (singleStep (loaded (0x3C, 0x00, 0x00, 0xFF, 0x00) 0x0200 [(0x0020, 0x3C), (0x0200, 0x45), (0x0201, 0x20)])) =
      some ⟨.running, 0x00, 0x00, 0x00, 0xFF, 0x02, 0x0202, 1, []⟩ := by decide

/-- V41: AND ($20,X). -/
theorem test_V41_andIndx :
    shown [] (singleStep (loaded (0xFF, 0x04, 0x00, 0xFF, 0x00) 0x0200
        [(0x0024, 0x00), (0x0025, 0x03), (0x0200, 0x21), (0x0201, 0x20), (0x0300, 0x81)])) =
      some ⟨.running, 0x81, 0x04, 0x00, 0xFF, 0x80, 0x0202, 1, []⟩ := by decide

/-- V42: ASL A. -/
theorem test_V42_aslAcc :
    shown [] (singleStep (loaded (0x81, 0x00, 0x00, 0xFF, 0x00) 0x0200 [(0x0200, 0x0A)])) =
      some ⟨.running, 0x02, 0x00, 0x00, 0xFF, 0x01, 0x0201, 1, []⟩ := by decide

/-- V43: ASL A (80). -/
theorem test_V43_aslAcc :
    shown [] (singleStep (loaded (0x80, 0x00, 0x00, 0xFF, 0x00) 0x0200 [(0x0200, 0x0A)])) =
      some ⟨.running, 0x00, 0x00, 0x00, 0xFF, 0x03, 0x0201, 1, []⟩ := by decide

/-- V44: LSR A. -/
theorem test_V44_lsrAcc :
    shown [] (singleStep (loaded (0x84, 0x00, 0x00, 0xFF, 0x81) 0x0200 [(0x0200, 0x4A)])) =
      some ⟨.running, 0x42, 0x00, 0x00, 0xFF, 0x00, 0x0201, 1, []⟩ := by decide

/-- V45: LSR $20 (01). -/
theorem test_V45_lsrZp :
    shown [0x0020] (singleStep (loaded (0x00, 0x00, 0x00, 0xFF, 0x00) 0x0200 [(0x0020, 0x01), (0x0200, 0x46), (0x0201, 0x20)])) =
      some ⟨.running, 0x00, 0x00, 0x00, 0xFF, 0x03, 0x0202, 1, [0x00]⟩ := by decide

/-- V46: ROL $40 C=1. -/
theorem test_V46_rolZp :
    shown [0x0040] (singleStep (loaded (0x00, 0x00, 0x00, 0xFF, 0x01) 0x0200 [(0x0040, 0x80), (0x0200, 0x26), (0x0201, 0x40)])) =
      some ⟨.running, 0x00, 0x00, 0x00, 0xFF, 0x01, 0x0202, 1, [0x01]⟩ := by decide

/-- V47: ROL A C=0. -/
theorem test_V47_rolAcc :
    shown [] (singleStep (loaded (0x40, 0x00, 0x00, 0xFF, 0x00) 0x0200 [(0x0200, 0x2A)])) =
      some ⟨.running, 0x80, 0x00, 0x00, 0xFF, 0x80, 0x0201, 1, []⟩ := by decide

/-- V48: ROR A C=1. -/
theorem test_V48_rorAcc :
    shown [] (singleStep (loaded (0x01, 0x00, 0x00, 0xFF, 0x01) 0x0200 [(0x0200, 0x6A)])) =
      some ⟨.running, 0x80, 0x00, 0x00, 0xFF, 0x81, 0x0201, 1, []⟩ := by decide

/-- V49: ROR $0300,X C=0. -/
theorem test_V49_rorAbsx :
    shown [0x0302] (singleStep (loaded (0x00, 0x02, 0x00, 0xFF, 0x00) 0x0200
        [(0x0200, 0x7E), (0x0201, 0x00), (0x0202, 0x03), (0x0302, 0x01)])) =
      some ⟨.running, 0x00, 0x02, 0x00, 0xFF, 0x03, 0x0203, 1, [0x00]⟩ := by decide

/-- V50: ROR A C=1 (00). -/
theorem test_V50_rorAcc :
    shown [] (singleStep (loaded (0x00, 0x00, 0x00, 0xFF, 0x01) 0x0200 [(0x0200, 0x6A)])) =
      some ⟨.running, 0x80, 0x00, 0x00, 0xFF, 0x80, 0x0201, 1, []⟩ := by decide

/-- V51: CMP #$40 (equal). -/
theorem test_V51_cmpImm :
    shown [] (singleStep (loaded (0x40, 0x00, 0x00, 0xFF, 0x40) 0x0200 [(0x0200, 0xC9), (0x0201, 0x40)])) =
      some ⟨.running, 0x40, 0x00, 0x00, 0xFF, 0x43, 0x0202, 1, []⟩ := by decide

/-- V53: CMP #$01 (80 vs 01). -/
theorem test_V53_cmpImm :
    shown [] (singleStep (loaded (0x80, 0x00, 0x00, 0xFF, 0x00) 0x0200 [(0x0200, 0xC9), (0x0201, 0x01)])) =
      some ⟨.running, 0x80, 0x00, 0x00, 0xFF, 0x01, 0x0202, 1, []⟩ := by decide

/-- V55: CPX $20. -/
theorem test_V55_cpxZp :
    shown [] (singleStep (loaded (0x00, 0x10, 0x00, 0xFF, 0x00) 0x0200 [(0x0020, 0x10), (0x0200, 0xE4), (0x0201, 0x20)])) =
      some ⟨.running, 0x00, 0x10, 0x00, 0xFF, 0x03, 0x0202, 1, []⟩ := by decide

/-- V56: CPY #$06. -/
theorem test_V56_cpyImm :
    shown [] (singleStep (loaded (0x00, 0x00, 0x05, 0xFF, 0x00) 0x0200 [(0x0200, 0xC0), (0x0201, 0x06)])) =
      some ⟨.running, 0x00, 0x00, 0x05, 0xFF, 0x80, 0x0202, 1, []⟩ := by decide

/-- V57: BCC taken +3. -/
theorem test_V57_bcc :
    shown [] (singleStep (loaded (0x00, 0x00, 0x00, 0xFF, 0x00) 0x0010 [(0x0010, 0x90), (0x0011, 0x03)])) =
      some ⟨.running, 0x00, 0x00, 0x00, 0xFF, 0x00, 0x0015, 1, []⟩ := by decide

/-- V58: BCC not taken. -/
theorem test_V58_bcc :
    shown [] (singleStep (loaded (0x00, 0x00, 0x00, 0xFF, 0x01) 0x0010 [(0x0010, 0x90), (0x0011, 0x03)])) =
      some ⟨.running, 0x00, 0x00, 0x00, 0xFF, 0x01, 0x0012, 1, []⟩ := by decide

/-- V59: BCS taken -4. -/
theorem test_V59_bcs :
    shown [] (singleStep (loaded (0x00, 0x00, 0x00, 0xFF, 0x01) 0x0010 [(0x0010, 0xB0), (0x0011, 0xFC)])) =
      some ⟨.running, 0x00, 0x00, 0x00, 0xFF, 0x01, 0x000E, 1, []⟩ := by decide

/-- V60: BEQ taken. -/
theorem test_V60_beq :
    shown [] (singleStep (loaded (0x00, 0x00, 0x00, 0xFF, 0x02) 0x0020 [(0x0020, 0xF0), (0x0021, 0x10)])) =
      some ⟨.running, 0x00, 0x00, 0x00, 0xFF, 0x02, 0x0032, 1, []⟩ := by decide

/-- V61: BNE taken -5. -/
theorem test_V61_bne :
    shown [] (singleStep (loaded (0x00, 0x00, 0x00, 0xFF, 0x00) 0x0005 [(0x0005, 0xD0), (0x0006, 0xFB)])) =
      some ⟨.running, 0x00, 0x00, 0x00, 0xFF, 0x00, 0x0002, 1, []⟩ := by decide

/-- V62: BMI taken +127. -/
theorem test_V62_bmi :
    shown [] (singleStep (loaded (0x00, 0x00, 0x00, 0xFF, 0x80) 0x0000 [(0x0000, 0x30), (0x0001, 0x7F)])) =
      some ⟨.running, 0x00, 0x00, 0x00, 0xFF, 0x80, 0x0081, 1, []⟩ := by decide

/-- V63: BPL taken -128 wraps. -/
theorem test_V63_bpl :
    shown [] (singleStep (loaded (0x00, 0x00, 0x00, 0xFF, 0x00) 0x0000 [(0x0000, 0x10), (0x0001, 0x80)])) =
      some ⟨.running, 0x00, 0x00, 0x00, 0xFF, 0x00, 0xFF82, 1, []⟩ := by decide

/-- V64: BVC taken. -/
theorem test_V64_bvc :
    shown [] (singleStep (loaded (0x00, 0x00, 0x00, 0xFF, 0x00) 0x0030 [(0x0030, 0x50), (0x0031, 0x02)])) =
      some ⟨.running, 0x00, 0x00, 0x00, 0xFF, 0x00, 0x0034, 1, []⟩ := by decide

/-- V65: BVS not taken. -/
theorem test_V65_bvs :
    shown [] (singleStep (loaded (0x00, 0x00, 0x00, 0xFF, 0x00) 0x0030 [(0x0030, 0x70), (0x0031, 0x02)])) =
      some ⟨.running, 0x00, 0x00, 0x00, 0xFF, 0x00, 0x0032, 1, []⟩ := by decide

/-- V66: BRA wraps upward. -/
theorem test_V66_bra :
    shown [] (singleStep (loaded (0x00, 0x00, 0x00, 0xFF, 0xFF) 0xFFF0 [(0xFFF0, 0x80), (0xFFF1, 0x20)])) =
      some ⟨.running, 0x00, 0x00, 0x00, 0xFF, 0xFF, 0x0012, 1, []⟩ := by decide

/-- V67: BRA to self. -/
theorem test_V67_bra :
    shown [] (singleStep (loaded (0x00, 0x00, 0x00, 0xFF, 0x00) 0x0200 [(0x0200, 0x80), (0x0201, 0xFE)])) =
      some ⟨.running, 0x00, 0x00, 0x00, 0xFF, 0x00, 0x0200, 1, []⟩ := by decide

/-- V68: CLC. -/
theorem test_V68_clc :
    shown [] (singleStep (loaded (0x00, 0x00, 0x00, 0xFF, 0xC3) 0x0200 [(0x0200, 0x18)])) =
      some ⟨.running, 0x00, 0x00, 0x00, 0xFF, 0xC2, 0x0201, 1, []⟩ := by decide

/-- V69: SEC. -/
theorem test_V69_sec :
    shown [] (singleStep (loaded (0x00, 0x00, 0x00, 0xFF, 0x00) 0x0200 [(0x0200, 0x38)])) =
      some ⟨.running, 0x00, 0x00, 0x00, 0xFF, 0x01, 0x0201, 1, []⟩ := by decide

/-- V70: CLD. -/
theorem test_V70_cld :
    shown [] (singleStep (loaded (0x00, 0x00, 0x00, 0xFF, 0x08) 0x0200 [(0x0200, 0xD8)])) =
      some ⟨.running, 0x00, 0x00, 0x00, 0xFF, 0x00, 0x0201, 1, []⟩ := by decide

/-- V71: SED. -/
theorem test_V71_sed :
    shown [] (singleStep (loaded (0x00, 0x00, 0x00, 0xFF, 0x00) 0x0200 [(0x0200, 0xF8)])) =
      some ⟨.running, 0x00, 0x00, 0x00, 0xFF, 0x08, 0x0201, 1, []⟩ := by decide

/-- V72: CLI. -/
theorem test_V72_cli :
    shown [] (singleStep (loaded (0x00, 0x00, 0x00, 0xFF, 0x04) 0x0200 [(0x0200, 0x58)])) =
      some ⟨.running, 0x00, 0x00, 0x00, 0xFF, 0x00, 0x0201, 1, []⟩ := by decide

/-- V73: SEI. -/
theorem test_V73_sei :
    shown [] (singleStep (loaded (0x00, 0x00, 0x00, 0xFF, 0x00) 0x0200 [(0x0200, 0x78)])) =
      some ⟨.running, 0x00, 0x00, 0x00, 0xFF, 0x04, 0x0201, 1, []⟩ := by decide

/-- V74: CLV. -/
theorem test_V74_clv :
    shown [] (singleStep (loaded (0x00, 0x00, 0x00, 0xFF, 0x40) 0x0200 [(0x0200, 0xB8)])) =
      some ⟨.running, 0x00, 0x00, 0x00, 0xFF, 0x00, 0x0201, 1, []⟩ := by decide

/-- V75: PHA at SP=00. -/
theorem test_V75_pha :
    shown [0x0100] (singleStep (loaded (0x42, 0x00, 0x00, 0x00, 0x00) 0x0200 [(0x0200, 0x48)])) =
      some ⟨.running, 0x42, 0x00, 0x00, 0xFF, 0x00, 0x0201, 1, [0x42]⟩ := by decide

/-- V76: PHP. -/
theorem test_V76_php :
    shown [0x01FF] (singleStep (loaded (0x00, 0x00, 0x00, 0xFF, 0x83) 0x0200 [(0x0200, 0x08)])) =
      some ⟨.running, 0x00, 0x00, 0x00, 0xFE, 0x83, 0x0201, 1, [0xB3]⟩ := by decide

/-- V77: PHX. -/
theorem test_V77_phx :
    shown [0x0110] (singleStep (loaded (0x00, 0x07, 0x00, 0x10, 0x00) 0x0200 [(0x0200, 0xDA)])) =
      some ⟨.running, 0x00, 0x07, 0x00, 0x0F, 0x00, 0x0201, 1, [0x07]⟩ := by decide

/-- V78: PHY. -/
theorem test_V78_phy :
    shown [0x010F] (singleStep (loaded (0x00, 0x00, 0x09, 0x0F, 0x00) 0x0200 [(0x0200, 0x5A)])) =
      some ⟨.running, 0x00, 0x00, 0x09, 0x0E, 0x00, 0x0201, 1, [0x09]⟩ := by decide

/-- V79: PLA at SP=FF. -/
theorem test_V79_pla :
    shown [] (singleStep (loaded (0x00, 0x00, 0x00, 0xFF, 0x80) 0x0200 [(0x0100, 0x00), (0x0200, 0x68)])) =
      some ⟨.running, 0x00, 0x00, 0x00, 0x00, 0x02, 0x0201, 1, []⟩ := by decide

/-- V80: PLP raw. -/
theorem test_V80_plp :
    shown [] (singleStep (loaded (0x00, 0x00, 0x00, 0xFE, 0x00) 0x0200 [(0x01FF, 0xB3), (0x0200, 0x28)])) =
      some ⟨.running, 0x00, 0x00, 0x00, 0xFF, 0xB3, 0x0201, 1, []⟩ := by decide

/-- V81: PLX. -/
theorem test_V81_plx :
    shown [] (singleStep (loaded (0x00, 0x00, 0x00, 0x0F, 0x00) 0x0200 [(0x0110, 0x00), (0x0200, 0xFA)])) =
      some ⟨.running, 0x00, 0x00, 0x00, 0x10, 0x02, 0x0201, 1, []⟩ := by decide

/-- V82: PLY. -/
theorem test_V82_ply :
    shown [] (singleStep (loaded (0x00, 0x00, 0x00, 0x0E, 0x00) 0x0200 [(0x010F, 0x80), (0x0200, 0x7A)])) =
      some ⟨.running, 0x00, 0x00, 0x80, 0x0F, 0x80, 0x0201, 1, []⟩ := by decide

/-- V83: TSX. -/
theorem test_V83_tsx :
    shown [] (singleStep (loaded (0x00, 0x01, 0x00, 0x80, 0x00) 0x0200 [(0x0200, 0xBA)])) =
      some ⟨.running, 0x00, 0x80, 0x00, 0x80, 0x80, 0x0201, 1, []⟩ := by decide

/-- V84: TSX (SP=00). -/
theorem test_V84_tsx :
    shown [] (singleStep (loaded (0x00, 0x01, 0x00, 0x00, 0x00) 0x0200 [(0x0200, 0xBA)])) =
      some ⟨.running, 0x00, 0x00, 0x00, 0x00, 0x02, 0x0201, 1, []⟩ := by decide

/-- V85: TXS. -/
theorem test_V85_txs :
    shown [] (singleStep (loaded (0x00, 0x00, 0x00, 0x55, 0x80) 0x0200 [(0x0200, 0x9A)])) =
      some ⟨.running, 0x00, 0x00, 0x00, 0x00, 0x80, 0x0201, 1, []⟩ := by decide

/-- V86: TSB $20. -/
theorem test_V86_tsbZp :
    shown [0x0020] (singleStep (loaded (0x81, 0x00, 0x00, 0xFF, 0x00) 0x0200 [(0x0020, 0x0F), (0x0200, 0x04), (0x0201, 0x20)])) =
      some ⟨.running, 0x81, 0x00, 0x00, 0xFF, 0x80, 0x0202, 1, [0x8F]⟩ := by decide

/-- V87: TSB $20 (both 0). -/
theorem test_V87_tsbZp :
    shown [0x0020] (singleStep (loaded (0x00, 0x00, 0x00, 0xFF, 0x00) 0x0200 [(0x0020, 0x00), (0x0200, 0x04), (0x0201, 0x20)])) =
      some ⟨.running, 0x00, 0x00, 0x00, 0xFF, 0x02, 0x0202, 1, [0x00]⟩ := by decide

/-- V88: TRB $0300. -/
theorem test_V88_trbAbs :
    shown [0x0300] (singleStep (loaded (0x0F, 0x00, 0x00, 0xFF, 0x00) 0x0200
        [(0x0200, 0x1C), (0x0201, 0x00), (0x0202, 0x03), (0x0300, 0xFF)])) =
      some ⟨.running, 0x0F, 0x00, 0x00, 0xFF, 0x80, 0x0203, 1, [0xF0]⟩ := by decide

/-- V89: TRB $20 (all cleared). -/
theorem test_V89_trbZp :
    shown [0x0020] (singleStep (loaded (0xFF, 0x00, 0x00, 0xFF, 0x80) 0x0200 [(0x0020, 0x5A), (0x0200, 0x14), (0x0201, 0x20)])) =
      some ⟨.running, 0xFF, 0x00, 0x00, 0xFF, 0x02, 0x0202, 1, [0x00]⟩ := by decide

/-- V90: JMP $1234. -/
theorem test_V90_jmp :
    shown [] (singleStep (loaded (0x00, 0x00, 0x00, 0xFF, 0xFF) 0x0200 [(0x0200, 0x4C), (0x0201, 0x34), (0x0202, 0x12)])) =
      some ⟨.running, 0x00, 0x00, 0x00, 0xFF, 0xFF, 0x1234, 1, []⟩ := by decide

/-- V91: BRK. -/
theorem test_V91_brk :
    shown [0x01FF, 0x01FE, 0x01FD] (singleStep (loaded (0x00, 0x00, 0x00, 0xFF, 0x00) 0x0200
        [(0x01FD, 0x00), (0x01FE, 0x00), (0x01FF, 0x00), (0x0200, 0x00)])) =
      some ⟨.halt, 0x00, 0x00, 0x00, 0xFF, 0x00, 0x0201, 1, [0x00, 0x00, 0x00]⟩ := by decide

/-- V92: NOP. -/
theorem test_V92_nop :
    shown [] (singleStep (loaded (0x01, 0x02, 0x03, 0xFF, 0xFF) 0x0200 [(0x0200, 0xEA)])) =
      some ⟨.running, 0x01, 0x02, 0x03, 0xFF, 0xFF, 0x0201, 1, []⟩ := by decide

/-- V93: RTI. -/
theorem test_V93_rti :
    shown [] (singleStep (loaded (0x00, 0x00, 0x00, 0xFC, 0x00) 0x0200
        [(0x01FD, 0x81), (0x01FE, 0x34), (0x01FF, 0x12), (0x0200, 0x40)])) =
      some ⟨.running, 0x00, 0x00, 0x00, 0xFF, 0x81, 0x1234, 1, []⟩ := by decide

/-- V94: RTI wraps SP. -/
theorem test_V94_rti :
    shown [] (singleStep (loaded (0x00, 0x00, 0x00, 0xFE, 0x00) 0x0200
        [(0x0100, 0x00), (0x0101, 0x80), (0x01FF, 0x30), (0x0200, 0x40)])) =
      some ⟨.running, 0x00, 0x00, 0x00, 0x01, 0x30, 0x8000, 1, []⟩ := by decide

/-- V95: TAX byte AA unassigned. -/
theorem test_V95_unassigned_AA :
    shown [] (singleStep (loaded (0x01, 0x00, 0x00, 0xFF, 0x00) 0x0200 [(0x0200, 0xAA)])) =
      some ⟨.unassignedOpcode 0xAA 0x0200, 0x01, 0x00, 0x00, 0xFF, 0x00, 0x0201, 0, []⟩ := by decide

/-- V96: JSR byte 20 unassigned. -/
theorem test_V96_unassigned_20 :
    shown [] (singleStep (loaded (0x00, 0x00, 0x00, 0xFF, 0x00) 0x0200 [(0x0200, 0x20), (0x0201, 0x00), (0x0202, 0x03)])) =
      some ⟨.unassignedOpcode 0x20 0x0200, 0x00, 0x00, 0x00, 0xFF, 0x00, 0x0201, 0, []⟩ := by decide

/-- V98: BRK at FFFF. -/
theorem test_V98_brk :
    shown [] (singleStep (loaded (0x00, 0x00, 0x00, 0xFF, 0x00) 0xFFFF [(0xFFFF, 0x00)])) =
      some ⟨.addressSpaceExhausted, 0x00, 0x00, 0x00, 0xFF, 0x00, 0xFFFF, 0, []⟩ := by decide

/-- V99: LDA # at FFFE. -/
theorem test_V99_ldaImm :
    shown [] (singleStep (loaded (0x11, 0x00, 0x00, 0xFF, 0x00) 0xFFFE [(0xFFFE, 0xA9), (0xFFFF, 0x42)])) =
      some ⟨.addressSpaceExhausted, 0x11, 0x00, 0x00, 0xFF, 0x00, 0xFFFF, 0, []⟩ := by decide

/-- V100: JMP at FFFD. -/
theorem test_V100_jmp :
    shown [] (singleStep (loaded (0x00, 0x00, 0x00, 0xFF, 0x00) 0xFFFD [(0xFFFD, 0x4C), (0xFFFE, 0x00), (0xFFFF, 0x02)])) =
      some ⟨.addressSpaceExhausted, 0x00, 0x00, 0x00, 0xFF, 0x00, 0xFFFF, 0, []⟩ := by decide

/-- V101: unassigned 02 at FFFE. -/
theorem test_V101_unassigned_02 :
    shown [] (singleStep (loaded (0x00, 0x00, 0x00, 0xFF, 0x00) 0xFFFE [(0xFFFE, 0x02), (0xFFFF, 0x00)])) =
      some ⟨.unassignedOpcode 0x02 0xFFFE, 0x00, 0x00, 0x00, 0xFF, 0x00, 0xFFFF, 0, []⟩ := by decide

/-- V102: NOP at FFFE. -/
theorem test_V102_nop :
    shown [] (singleStep (loaded (0x00, 0x00, 0x00, 0xFF, 0x00) 0xFFFE [(0xFFFE, 0xEA)])) =
      some ⟨.running, 0x00, 0x00, 0x00, 0xFF, 0x00, 0xFFFF, 1, []⟩ := by decide

/-! ## Host operations -/

/-- H1: `reset()` leaves memory. -/
theorem test_H1_reset :
    hostReset { loaded (0x12, 0x34, 0x56, 0x78, 0xFF) 0x9ABC [(0x0000, 0xA9)] with ic := 7 } =
      loaded (0x00, 0x00, 0x00, 0x00, 0x00) 0x0000 [(0x0000, 0xA9)] := by decide

/-- H2: `loadProgram` writes its bytes and no register. -/
theorem test_H2_load :
    loadProgram [0xA9, 0x42, 0x00] (loaded (1, 2, 3, 4, 5) 0x0200 [(0x0003, 0xEE)]) =
      .next (loaded (1, 2, 3, 4, 5) 0x0200 [(0x0000, 0xA9), (0x0001, 0x42), (0x0002, 0x00), (0x0003, 0xEE)]) := rfl

/-- H3: 65,537 bytes are rejected. -/
theorem test_H3_oversized (s : State) :
    loadProgram (List.replicate 65537 0x00) s = .fault (.oversizedProgramLoad 65537) := by
  rw [loadProgram, List.length_replicate]
  rfl

/-- H5: no bytes, nothing changes. -/
theorem test_H5_load_nothing : loadProgram [] State.reset = .next State.reset := rfl

/-- H7: `execute()` again after an AddressSpaceExhausted stop. -/
theorem test_H7_exhausted_again :
    shown [] (execute 3 (loaded (0, 0, 0, 0xFF, 0) 0xFFFF [(0xFFFF, 0xEA)])) =
      some ⟨.addressSpaceExhausted, 0, 0, 0, 0xFF, 0, 0xFFFF, 0, []⟩ := by decide

/-- H8: `execute()` after `reset()` with a zero byte at address 0. -/
theorem test_H8_execute_brk :
    shown [] (execute 3 (State.reset.setMem [(0x0000, 0x00)])) = some ⟨.halt, 0, 0, 0, 0, 0, 0x0001, 1, []⟩ := by decide

/-- D18: the operand an observation resolves is the effective address (V6), a branch's target (V59), or the immediate byte. -/
theorem test_trace_operand :
    trace (loaded (0, 1, 0, 0xFF, 0) 0x0200 [(0x0000, 0x12), (0x00FF, 0x34), (0x0200, 0xA1), (0x0201, 0xFE)]) =
      some ⟨.lda, .indx, .address 0x1234⟩ ∧
    trace (loaded (0, 0, 0, 0xFF, 1) 0x0010 [(0x0010, 0xB0), (0x0011, 0xFC)]) = some ⟨.bcs, .rel, .address 0x000E⟩ ∧
    trace (loaded (0, 0, 0, 0xFF, 0) 0x0200 [(0x0200, 0xA9), (0x0201, 0x42)]) = some ⟨.lda, .imm, .value 0x42⟩ ∧
    trace (loaded (0, 0, 0, 0xFF, 0) 0x0200 [(0x0200, 0x02)]) = none := by decide

/-- R57: the accesses of INC $30,X and of LDA ($FE,X), in order. -/
theorem test_access_order :
    accesses (loaded (0, 0x02, 0, 0xFF, 0) 0x0200 [(0x0200, 0xF6), (0x0201, 0x30)]) =
      [.fetch 0x0200, .fetch 0x0201, .read 0x0032, .write 0x0032] ∧
    accesses (loaded (0, 1, 0, 0xFF, 0) 0x0200 [(0x0000, 0x12), (0x00FF, 0x34), (0x0200, 0xA1), (0x0201, 0xFE)]) =
      [.fetch 0x0200, .fetch 0x0201, .read 0x00FF, .read 0x0000, .read 0x1234] := by decide

/-- R91, R218: what a step that ends in an error has read. An unassigned byte at 0xFFFE, a NOP at 0xFFFF, LDA # at 0xFFFE, a
JMP at 0xFFFE and at 0xFFFD. -/
theorem test_access_abandoned :
    accesses (loaded (0, 0, 0, 0xFF, 0) 0xFFFE [(0xFFFE, 0x02)]) = [.fetch 0xFFFE] ∧
    accesses (loaded (0, 0, 0, 0xFF, 0) 0xFFFF [(0xFFFF, 0xEA)]) = [.fetch 0xFFFF] ∧
    accesses (loaded (0, 0, 0, 0xFF, 0) 0xFFFE [(0xFFFE, 0xA9)]) = [.fetch 0xFFFE, .fetch 0xFFFF] ∧
    accesses (loaded (0, 0, 0, 0xFF, 0) 0xFFFE [(0xFFFE, 0x4C)]) = [.fetch 0xFFFE, .fetch 0xFFFF] ∧
    accesses (loaded (0, 0, 0, 0xFF, 0) 0xFFFD [(0xFFFD, 0x4C)]) =
      [.fetch 0xFFFD, .fetch 0xFFFE, .fetch 0xFFFF] := by decide

/-- R83's examples. -/
theorem test_assembly_text :
    instrText .pha = "PHA" ∧ instrText .lsrAcc = "LSR A" ∧ instrText (.ldaImm 0x42) = "LDA #$42" ∧
    instrText (.staZp 0x20) = "STA $20" ∧ instrText (.ldaZpx 0x20) = "LDA $20,X" ∧ instrText (.ldxZpy 0x20) = "LDX $20,Y" ∧
    instrText (.ldaAbs 0x1234) = "LDA $1234" ∧ instrText (.ldaAbsx 0x1234) = "LDA $1234,X" ∧
    instrText (.ldaAbsy 0x1234) = "LDA $1234,Y" ∧ instrText (.ldaIndx 0x20) = "LDA ($20,X)" ∧
    instrText (.ldaIndy 0x20) = "LDA ($20),Y" ∧ instrText (.ldaZpi 0x20) = "LDA ($20)" := by decide

/-- P1's BNE at 0x000A to 0x0004 is D0 F8; the farthest labels either way, and one beyond each. -/
theorem test_assembleRel :
    assembleRel 0x0004 0x000A = some 0xF8 ∧ assembleRel 0x0281 0x0200 = some 0x7F ∧ assembleRel 0x0282 0x0200 = none ∧
    assembleRel 0x0182 0x0200 = some 0x80 ∧ assembleRel 0x0181 0x0200 = none := by decide

/-- A program word placed at the next step's fetch runs (log entry 3). -/
theorem test_withFetchWord : shown [] (singleStep (State.reset.withFetchWord 16 0x80A9)) =
    some ⟨.running, 0x80, 0, 0, 0, 0x80, 0x0002, 1, []⟩ := by decide

/-- Writing keeps the canonical form: an address in between, and an address written twice. -/
theorem test_write_canonical :
    Memory.write [(0x0010, 0x01), (0x0030, 0x03)] 0x0020 0x02 = [(0x0010, 0x01), (0x0020, 0x02), (0x0030, 0x03)] ∧
    Memory.write [(0x0010, 0x01), (0x0030, 0x03)] 0x0030 0x07 = [(0x0010, 0x01), (0x0030, 0x07)] := by decide

/-! ## Witnesses: for each obligation with hypotheses, a state and operands that meet them, clause by clause -/

/-- A NOP, an LDA # or a JMP whose last byte is the last that can be fetched, each with the bytes after it. -/
def nopAtFFFE : State := loaded (0, 0, 0, 0, 0) 0xFFFE [(0x0000, 0x00), (0xFFFE, 0xEA), (0xFFFF, 0x00)]
def ldaAtFFFD : State := loaded (0, 0, 0, 0, 0) 0xFFFD [(0xFFFD, 0xA9), (0xFFFE, 0x42), (0xFFFF, 0x00)]
def jmpAtFFFC : State := loaded (0, 0, 0, 0, 0) 0xFFFC [(0xFFFC, 0x4C), (0xFFFD, 0x34), (0xFFFE, 0x12), (0xFFFF, 0x00)]
/-- A PHA at address 0, with a byte in the slot it writes. -/
def phaAtZero : State := loaded (0x42, 0, 0, 0xFF, 0) 0x0000 [(0x0000, 0x48), (0x01FF, 0x99)]
def brkAtFFFE : State := loaded (0, 0, 0, 0, 0) 0xFFFE [(0xFFFE, 0x00)]
def unassignedAtFFFE : State := loaded (0, 0, 0, 0, 0) 0xFFFE [(0xFFFE, 0x02)]
def topOfMemory : State := loaded (0, 0, 0, 0, 0) 0xFFFF [(0xFFFF, 0x00)]

theorem test_witness_EncodeOfDecodeIsTheBytes :
    decode [0xEA#8, 0x01#8] = .ok (.nop, [0x01#8]) ∧ decode [0xA9#8, 0xFF#8] = .ok (.ldaImm 0xFF#8, []) ∧
    decode [0x4C#8, 0x34#8, 0x12#8] = .ok (.jmp 0x1234#16, []) := ⟨rfl, rfl, rfl⟩

/-- Also of AccessesComeInOrder, whose first hypotheses are the same. -/
theorem test_witness_StepRunsTheDecodedInstruction :
    (decode (bytesAtPC nopAtFFFE) = .ok (.nop, [0x00#8, 0x00#8]) ∧ Instr.nop.wellFormedAt nopAtFFFE.pc = true) ∧
    (decode (bytesAtPC ldaAtFFFD) = .ok (.ldaImm 0x42#8, [0x00#8]) ∧
      (Instr.ldaImm 0x42#8).wellFormedAt ldaAtFFFD.pc = true) ∧
    (decode (bytesAtPC jmpAtFFFC) = .ok (.jmp 0x1234#16, []) ∧ (Instr.jmp 0x1234#16).wellFormedAt jmpAtFFFC.pc = true) :=
  ⟨⟨rfl, rfl⟩, ⟨rfl, rfl⟩, ⟨rfl, rfl⟩⟩

/-- At the top; no handler at 0xFFFE; a byte at 0xFFFF for a two-byte and a three-byte instruction; and the last place each
length completes. -/
theorem test_witness_StepEndsInItsFirstFailedCheck :
    topOfMemory.pc = 0xFFFF#16 ∧
    (unassignedAtFFFE.pc ≠ 0xFFFF#16 ∧ handlerOf (unassignedAtFFFE.byteAt unassignedAtFFFE.pc) = none) ∧
    (handlerOf ((loaded (0, 0, 0, 0, 0) 0xFFFE [(0xFFFE, 0xA9)]).byteAt 0xFFFE#16) = some (.oneByte .ldaImm) ∧
      65535 < 0xFFFE + (Handler.oneByte .ldaImm).length) ∧
    (handlerOf ((loaded (0, 0, 0, 0, 0) 0xFFFD [(0xFFFD, 0x4C)]).byteAt 0xFFFD#16) = some (.twoBytes .jmp) ∧
      65535 < 0xFFFD + (Handler.twoBytes .jmp).length) ∧
    (handlerOf (nopAtFFFE.byteAt nopAtFFFE.pc) = some (.noOperand .nop) ∧
      nopAtFFFE.pc.toNat + (Handler.noOperand .nop).length ≤ 65535) ∧
    (handlerOf (ldaAtFFFD.byteAt ldaAtFFFD.pc) = some (.oneByte .ldaImm) ∧
      ldaAtFFFD.pc.toNat + (Handler.oneByte .ldaImm).length ≤ 65535) ∧
    (handlerOf (jmpAtFFFC.byteAt jmpAtFFFC.pc) = some (.twoBytes .jmp) ∧
      jmpAtFFFC.pc.toNat + (Handler.twoBytes .jmp).length ≤ 65535) :=
  ⟨rfl, ⟨by decide, rfl⟩, ⟨rfl, by decide⟩, ⟨rfl, by decide⟩, ⟨rfl, by decide⟩, ⟨rfl, by decide⟩, ⟨rfl, by decide⟩⟩

/-- The first and the last byte of R80's list. -/
theorem test_witness_NinetyThreeBytesAreUnassigned :
    (unassignedAtFFFE.pc ≠ 0xFFFF#16 ∧ unassignedAtFFFE.byteAt unassignedAtFFFE.pc ∈ unassignedBytes) ∧
    (loaded (0, 0, 0, 0, 0) 0x0000 [(0x0000, 0xFF)]).byteAt 0x0000#16 ∈ unassignedBytes := by decide

/-- The fetch of the last place each length completes. -/
theorem test_witness_StepNeverRefuses :
    fetchInstr nopAtFFFE = .ok (.nop, nopAtFFFE.setPC 0xFFFF#16) ∧
    fetchInstr ldaAtFFFD = .ok (.ldaImm 0x42#8, ldaAtFFFD.setPC 0xFFFF#16) ∧
    fetchInstr jmpAtFFFC = .ok (.jmp 0x1234#16, jmpAtFFFC.setPC 0xFFFF#16) := ⟨rfl, rfl, rfl⟩

/-- The clauses on errors: an unassigned byte at the last place it is dispatched, and one, two and three bytes up to 0xFFFF. -/
theorem test_witness_AccessesComeInOrder :
    step unassignedAtFFFE = .fault (.unassignedOpcode 0x02#8 0xFFFE#16) ∧
    step topOfMemory = .fault .addressSpaceExhausted ∧
    step (loaded (0, 0, 0, 0, 0) 0xFFFE [(0xFFFE, 0xA9)]) = .fault .addressSpaceExhausted ∧
    step (loaded (0, 0, 0, 0, 0) 0xFFFD [(0xFFFD, 0x4C)]) = .fault .addressSpaceExhausted := ⟨rfl, rfl, rfl, rfl⟩

theorem test_witness_ErrorStopsChangeOnlyPC :
    singleStep unassignedAtFFFE = some (.unassignedOpcode 0x02#8 0xFFFE#16, unassignedAtFFFE.setPC 0xFFFF#16) ∧
    singleStep topOfMemory = some (.addressSpaceExhausted, topOfMemory) := by decide

theorem test_witness_ExhaustionRecursAtOnce :
    singleStep (loaded (0, 0, 0, 0, 0) 0xFFFE [(0xFFFE, 0xA9)]) =
      some (.addressSpaceExhausted, loaded (0, 0, 0, 0, 0) 0xFFFF [(0xFFFE, 0xA9)]) := by decide

theorem test_witness_HaltIsExactlyAFetchedZeroByte :
    step brkAtFFFE = .next (((brkAtFFFE.setPC 0xFFFF#16).setIC 1).setOutcome .halt) ∧
    step nopAtFFFE = .next ((nopAtFFFE.setPC 0xFFFF#16).setIC 1) ∧
    brkAtFFFE.pc ≠ 0xFFFF#16 ∧ brkAtFFFE.byteAt brkAtFFFE.pc = 0x00#8 :=
  ⟨rfl, rfl, by decide, by decide⟩

theorem test_witness_ByteHoldsTheLastWrite : nopAtFFFE.pc ≠ 0xFFFF#16 ∧ State.reset.pc ≠ 0xFFFF#16 := by decide

theorem test_witness_StepKeepsMemoryCanonical :
    phaAtZero.Inv ∧
    step phaAtZero = .next ((((phaAtZero.writeByte 0x01FF#16 0x42#8).setReg .sp 0xFE#8).setPC 0x0001#16).setIC 1) :=
  ⟨by decide, rfl⟩

theorem test_witness_LoadProgramReadsBack :
    ([] : List Byte).length ≤ 65536 ∧ (List.replicate 65536 0xEA#8).length ≤ 65536 ∧
    (65535 < (List.replicate 65536 0xEA#8).length) ∧ ([0xA9#8, 0x42#8, 0x00#8] : List Byte).length ≤ (0x0003#16).toNat ∧
    State.reset.Inv := by
  refine ⟨by decide, Nat.le_of_eq List.length_replicate, ?_, by decide, by decide⟩
  rw [List.length_replicate]
  decide

theorem test_witness_OversizedLoadIsRejected : 65536 < (List.replicate 65537 0xEA#8).length := by
  rw [List.length_replicate]
  decide

theorem test_witness_MoreFuelDoesNotChangeAnEndedRun :
    execute 0 nopAtFFFE = some (.running, nopAtFFFE) ∧
    execute 1 nopAtFFFE = some (.running, (nopAtFFFE.setPC 0xFFFF#16).setIC 1) ∧
    execute 2 brkAtFFFE = some (.halt, ((brkAtFFFE.setPC 0xFFFF#16).setIC 1).setOutcome .halt) ∧
    execute 2 unassignedAtFFFE = some (.unassignedOpcode 0x02#8 0xFFFE#16, unassignedAtFFFE.setPC 0xFFFF#16) := by decide

/-- Also of CompletedStepCountsOne (the first part). -/
theorem test_witness_NothingReadsIC :
    step nopAtFFFE = .next ((nopAtFFFE.setPC 0xFFFF#16).setIC 1) ∧ step topOfMemory = .fault .addressSpaceExhausted :=
  ⟨rfl, rfl⟩

/-- Also of RegisterWriteMatrix: a register not written, an instruction that does not set PC and is not BRK. -/
theorem test_witness_FlagWriteMatrix :
    exec (.ldaImm 0x80#8) State.reset = .next ((State.reset.setReg .a 0x80#8).setNZ 0x80#8) ∧
    Flag.c ∉ flagsWritten (Instr.ldaImm 0x80#8).mnemonic ∧ Reg.x ∉ regsWritten (.ldaImm 0x80#8) ∧
    setsPC (Instr.ldaImm 0x80#8).mnemonic = false ∧ Instr.ldaImm 0x80#8 ≠ .brk :=
  ⟨rfl, by decide, by decide, by decide, by decide⟩

theorem test_witness_MemoryChangesOnlyWhereAccessed :
    exec .pha phaAtZero = .next (push 0x42#8 phaAtZero) ∧ Access.write 0x01FE#16 ∉ operationAccesses .pha phaAtZero ∧
    Access.write 0x01FF#16 ∈ operationAccesses .pha phaAtZero :=
  ⟨rfl, by decide, by decide⟩

/-- INC $20 over a memory that differs at 0x0021 alone. -/
theorem test_witness_MeaningReadsOnlyWhereItAccesses :
    let s := loaded (0, 0, 0, 0, 0) 0x0200 [(0x0020, 0x07), (0x0021, 0x01)]
    let m : Memory := [(0x0020, 0x07), (0x0021, 0x55)]
    (∀ a, Access.read a ∈ operationAccesses (.incZp 0x20#8) s → (s.setMem m).byteAt a = s.byteAt a) ∧
      exec (.incZp 0x20#8) s = .next ((s.writeByte 0x0020#16 0x08#8).setNZ 0x08#8) ∧
      Access.write 0x0020#16 ∈ operationAccesses (.incZp 0x20#8) s := by
  refine ⟨fun a ha => ?_, rfl, by decide⟩
  have h : a = 0x0020#16 := by
    simpa [operationAccesses, Instr.operand, Instr.mnemonic, Instr.view, dataUse, dataAccesses, pointerReads, resolve, eaZp,
      zeroPage] using ha
  subst h
  decide

theorem test_witness_StorageFlagsInfluenceNothing :
    (Instr.adcImm 0x09#8) ≠ .php ∧ Flag.d ∈ [Flag.i, .d, .b, .u] ∧
    exec (.adcImm 0x09#8) (State.reset.setReg .a 0x09#8) = .next ((State.reset.setReg .a 0x12#8).setP 0x00#8) :=
  ⟨by decide, by decide, rfl⟩

theorem test_witness_TraceObservesEveryCompletedStep :
    trace jmpAtFFFC = some ⟨.jmp, .abs, .address 0x1234#16⟩ ∧ step topOfMemory = .fault .addressSpaceExhausted :=
  ⟨by decide, rfl⟩

theorem test_witness_IncrementDecrementUnit :
    Instr.dex.mnemonic ∈ [Mnemonic.inc, .dec, .inx, .iny, .dex, .dey] ∧
    exec .dex State.reset = .next ((State.reset.setReg .x 0xFF#8).setNZ 0xFF#8) :=
  ⟨by decide, rfl⟩

/-- An address that is not the slot, a register that is not SP (also of PullIncrementsThenLoads). -/
theorem test_witness_PushStoresThenDecrements :
    (0x01FE#16 : Addr) ≠ stackAddr phaAtZero.sp ∧ (0x0200#16 : Addr) ≠ stackAddr phaAtZero.sp ∧ Reg.a ≠ .sp := by decide

/-- The longest list, and the addresses next to the stack page. -/
theorem test_witness_PulledBytesArePushedBytesReversed :
    (List.replicate 256 0x11#8).length ≤ 256 ∧ ([] : List Byte).length ≤ 256 ∧ (0x00FF#16).toNat < 0x0100 ∧
    0x01FF < (0x0200#16).toNat := by
  exact ⟨Nat.le_of_eq List.length_replicate, by decide, by decide, by decide⟩

/-- Each branch at the last place it completes, with displacement 0x80; those of C, Z, N, V = 0 are taken. -/
def branchAtFFFD (op : Byte) : State := loaded (0, 0, 0, 0, 0) 0xFFFD [(0xFFFD, op), (0xFFFE, 0x80), (0xFFFF, 0x00)]

theorem test_witness_BranchStepFromItsOpcodeAddress :
    (∀ op, (branchAtFFFD op).pc.toNat + 2 ≤ 65535 ∧ (branchAtFFFD op).byteAt ((branchAtFFFD op).pc + 1#16) = 0x80#8) ∧
    decode (bytesAtPC (branchAtFFFD 0x90#8)) = .ok (.bcc 0x80#8, [0x00#8]) ∧
    decode (bytesAtPC (branchAtFFFD 0xB0#8)) = .ok (.bcs 0x80#8, [0x00#8]) ∧
    decode (bytesAtPC (branchAtFFFD 0xF0#8)) = .ok (.beq 0x80#8, [0x00#8]) ∧
    decode (bytesAtPC (branchAtFFFD 0xD0#8)) = .ok (.bne 0x80#8, [0x00#8]) ∧
    decode (bytesAtPC (branchAtFFFD 0x30#8)) = .ok (.bmi 0x80#8, [0x00#8]) ∧
    decode (bytesAtPC (branchAtFFFD 0x10#8)) = .ok (.bpl 0x80#8, [0x00#8]) ∧
    decode (bytesAtPC (branchAtFFFD 0x50#8)) = .ok (.bvc 0x80#8, [0x00#8]) ∧
    decode (bytesAtPC (branchAtFFFD 0x70#8)) = .ok (.bvs 0x80#8, [0x00#8]) ∧
    decode (bytesAtPC (branchAtFFFD 0x80#8)) = .ok (.bra 0x80#8, [0x00#8]) :=
  ⟨fun _ => ⟨Nat.le_refl 65535, rfl⟩, rfl, rfl, rfl, rfl, rfl, rfl, rfl, rfl, rfl⟩

theorem test_witness_AssembledBranchReachesItsLabel :
    assembleRel 0x0281 0x0200 = some 0x7F ∧ assembleRel 0x0182 0x0200 = some 0x80 := by decide

end Sys2Proof.Tests
end

section
/-! The shared operation each instruction is a call of: `opOf` names it, `Op.effect` says what it writes, and
`exec_does` that this is everything the instruction's meaning does. The write matrices (spec/10_state.md R38) and the
statements about what no instruction reads follow from `Op.effect` alone. -/

namespace Sys2Proof.Proofs

open Sys2Proof.Machine Sys2Proof.Laws

/-! ## The operations -/

/-- The byte an operand delivers to a meaning that reads one (R95, R96). The operands that deliver none read as zero here;
`opOf` gives no reading operation such an operand. -/
def operandByte : Operand → State → Byte
  | .imm v, _ => v
  | .mem mode, s => operandAt mode s
  | .implied, _ | .acc, _ | .rel _, _ => 0#8

/-- The shared operations of the meanings, with what tells one instruction from another as arguments. -/
inductive Op where
  | load (r : Reg) (src : Operand)
  | store (r : Reg) (mode : AddrMode)
  | storeZero (mode : AddrMode)
  | add (src : Operand)
  | subtract (src : Operand)
  /-- `f` is given A and the byte of memory. -/
  | modifyMem (f : Byte → Byte → Byte) (mode : AddrMode)
  | modifyReg (f : Byte → Byte) (r : Reg)
  | combine (f : Byte → Byte → Byte) (src : Operand)
  /-- `f` is given the carry before the instruction and the byte. -/
  | shiftAcc (f : Bool → Byte → Byte × Bool)
  | shiftMem (f : Bool → Byte → Byte × Bool) (mode : AddrMode)
  | compare (r : Reg) (src : Operand)
  /-- `taken` is given the flag. -/
  | branch (taken : Bool → Bool) (f : Flag) (d : Byte)
  | branchAlways (d : Byte)
  | writeFlag (f : Flag) (b : Bool)
  | pushReg (r : Reg)
  | pushStatus
  | pullReg (r : Reg) (notSP : r ≠ .sp)
  | pullStatus
  | loadXFromSP
  | loadSPFromX
  | jump (mode : AddrMode)
  | halt
  | nothing
  | pullStatusAndPC

/-- The operation as the model defines it. -/
def Op.run : Op → State → Result
  | .load r src, s => loadReg r (operandByte src s) s
  | .store r mode, s => storeByte mode (s.reg r) s
  | .storeZero mode, s => storeByte mode 0#8 s
  | .add src, s => addToA (operandByte src s) s
  | .subtract src, s => subFromA (operandByte src s) s
  | .modifyMem f mode, s => modifyByte (f s.a) mode s
  | .modifyReg f r, s => Machine.modifyReg f r s
  | .combine f src, s => combineA f (operandByte src s) s
  | .shiftAcc f, s => shiftA (f (s.flag .c)) s
  | .shiftMem f mode, s => shiftByte (f (s.flag .c)) mode s
  | .compare r src, s => compareReg r (operandByte src s) s
  | .branch taken f d, s => branchIf (taken (s.flag f)) d s
  | .branchAlways d, s => branchIf true d s
  | .writeFlag f b, s => Machine.writeFlag f b s
  | .pushReg r, s => pushByte (s.reg r) s
  | .pushStatus, s => pushByte (pushedStatus s.p) s
  | .pullReg r _, s => Machine.pullReg r s
  | .pullStatus, s => execPlp s
  | .loadXFromSP, s => loadReg .x s.sp s
  | .loadSPFromX, s => execTxs s
  | .jump mode, s => .next (s.setPC (resolve mode s))
  | .halt, s => execBrk s
  | .nothing, s => .next s
  | .pullStatusAndPC, s => execRti s

/-- The operation of each mnemonic and operand (R74). The last line is NOP, and the pairs that no instruction has. -/
def opOf (i : Instr) : Op :=
  match i.mnemonic, i.operand with
  | .lda, src => .load .a src
  | .ldx, src => .load .x src
  | .ldy, src => .load .y src
  | .sta, .mem mode => .store .a mode
  | .stx, .mem mode => .store .x mode
  | .sty, .mem mode => .store .y mode
  | .stz, .mem mode => .storeZero mode
  | .adc, src => .add src
  | .sbc, src => .subtract src
  | .inc, .mem mode => .modifyMem (fun _ => inc8) mode
  | .dec, .mem mode => .modifyMem (fun _ => dec8) mode
  | .inx, _ => .modifyReg inc8 .x
  | .iny, _ => .modifyReg inc8 .y
  | .dex, _ => .modifyReg dec8 .x
  | .dey, _ => .modifyReg dec8 .y
  | .and, src => .combine and8 src
  | .ora, src => .combine or8 src
  | .eor, src => .combine eor8 src
  | .asl, .acc => .shiftAcc fun _ => asl8
  | .asl, .mem mode => .shiftMem (fun _ => asl8) mode
  | .lsr, .acc => .shiftAcc fun _ => lsr8
  | .lsr, .mem mode => .shiftMem (fun _ => lsr8) mode
  | .rol, .acc => .shiftAcc fun c v => rol8 v c
  | .rol, .mem mode => .shiftMem (fun c v => rol8 v c) mode
  | .ror, .acc => .shiftAcc fun c v => ror8 v c
  | .ror, .mem mode => .shiftMem (fun c v => ror8 v c) mode
  | .cmp, src => .compare .a src
  | .cpx, src => .compare .x src
  | .cpy, src => .compare .y src
  | .bcc, .rel d => .branch (!·) .c d
  | .bcs, .rel d => .branch id .c d
  | .beq, .rel d => .branch id .z d
  | .bne, .rel d => .branch (!·) .z d
  | .bmi, .rel d => .branch id .n d
  | .bpl, .rel d => .branch (!·) .n d
  | .bvc, .rel d => .branch (!·) .v d
  | .bvs, .rel d => .branch id .v d
  | .bra, .rel d => .branchAlways d
  | .clc, _ => .writeFlag .c false
  | .sec, _ => .writeFlag .c true
  | .cld, _ => .writeFlag .d false
  | .sed, _ => .writeFlag .d true
  | .cli, _ => .writeFlag .i false
  | .sei, _ => .writeFlag .i true
  | .clv, _ => .writeFlag .v false
  | .pha, _ => .pushReg .a
  | .php, _ => .pushStatus
  | .phx, _ => .pushReg .x
  | .phy, _ => .pushReg .y
  | .pla, _ => .pullReg .a (by decide)
  | .plp, _ => .pullStatus
  | .plx, _ => .pullReg .x (by decide)
  | .ply, _ => .pullReg .y (by decide)
  | .tsx, _ => .loadXFromSP
  | .txs, _ => .loadSPFromX
  | .tsb, .mem mode => .modifyMem (fun a m => tsb8 m a) mode
  | .trb, .mem mode => .modifyMem (fun a m => trb8 m a) mode
  | .jmp, .mem mode => .jump mode
  | .brk, _ => .halt
  | .rti, _ => .pullStatusAndPC
  | _, _ => .nothing

/-- Every instruction's meaning is a call of its operation: the one place where the 163 arms of `exec` are looked at. -/
theorem exec_eq_run (i : Instr) (s : State) : exec i s = (opOf i).run s := by
  cases i <;> rfl

/-! ## What an operation writes -/

/-- The order of the flags in an effect is of no account. -/
theorem does_of_flags_perm {e : Effect} {s : State} {out : Result} {fs : List (Flag × Bool)} (h : Does e s out)
    (hfs : fs.Perm e.flags) : Does { e with flags := fs } s out := by
  obtain ⟨t, ht, hr, hr', hf, hf', hrest⟩ := h
  exact ⟨t, ht, hr, hr', fun w hw => hf w (hfs.mem_iff.mp hw),
    fun f hn => hf' f fun h => hn ((hfs.map Prod.fst).mem_iff.mpr h), hrest⟩

/-- What ADC and SBC write, from the sum or difference, its carry and its overflow; the flags in the order of R38's row. -/
def sumEffect (alu : Byte × Bool × Bool) : Effect :=
  { regs := [(.a, alu.1)],
    flags := [(.n, alu.1.getLsbD 7), (.v, alu.2.2), (.z, decide (alu.1.toNat = 0)), (.c, alu.2.1)] }

theorem writeSum_does_sumEffect (alu : Byte × Bool × Bool) (s : State) :
    Does (sumEffect alu) s (writeSum alu s) :=
  does_of_flags_perm (writeSum_does alu s) ((List.perm_append_comm (l₁ := [_]) (l₂ := [_, _])).cons _)

/-- What an operation writes at a state. -/
def Op.effect : Op → State → Effect
  | .load r src, s => loads r (operandByte src s)
  | .store r mode, s => stores (resolve mode s) (s.reg r)
  | .storeZero mode, s => stores (resolve mode s) 0#8
  | .add src, s => sumEffect (add8 s.a (operandByte src s) (s.flag .c))
  | .subtract src, s => sumEffect (sub8 s.a (operandByte src s) (s.flag .c))
  | .modifyMem f mode, s => modifies (resolve mode s) (f s.a (s.byteAt (resolve mode s)))
  | .modifyReg f r, s => loads r (f (s.reg r))
  | .combine f src, s => loads .a (f s.a (operandByte src s))
  | .shiftAcc f, s => { regs := [(.a, (f (s.flag .c) s.a).1)],
                        flags := nz (f (s.flag .c) s.a).1 ++ [(.c, (f (s.flag .c) s.a).2)] }
  | .shiftMem f mode, s =>
    let m := s.byteAt (resolve mode s)
    { bytes := [(resolve mode s, (f (s.flag .c) m).1)],
      flags := nz (f (s.flag .c) m).1 ++ [(.c, (f (s.flag .c) m).2)] }
  | .compare r src, s =>
    { flags := nz (cmp8 (s.reg r) (operandByte src s)).1 ++ [(.c, (cmp8 (s.reg r) (operandByte src s)).2)] }
  | .branch taken f d, s => { pc := some (if taken (s.flag f) then branchTarget d s else s.pc) }
  | .branchAlways d, s => { pc := some (branchTarget d s) }
  | .writeFlag f b, _ => { flags := [(f, b)] }
  | .pushReg r, s => { regs := [(.sp, s.sp - 1#8)], bytes := [(stackAddr s.sp, s.reg r)] }
  | .pushStatus, s => { regs := [(.sp, s.sp - 1#8)], bytes := [(stackAddr s.sp, pushedStatus s.p)] }
  | .pullReg r _, s =>
    let v := s.byteAt (stackAddr (s.sp + 1#8))
    { regs := [(r, v), (.sp, s.sp + 1#8)], flags := nz v }
  | .pullStatus, s => { regs := [(.sp, s.sp + 1#8)], flags := allFlags (s.byteAt (stackAddr (s.sp + 1#8))) }
  | .loadXFromSP, s => loads .x s.sp
  | .loadSPFromX, s => { regs := [(.sp, s.x)] }
  | .jump mode, s => { pc := some (resolve mode s) }
  | .halt, _ => { outcome := some .halt }
  | .nothing, _ => {}
  | .pullStatusAndPC, s =>
    { regs := [(.sp, s.sp + 1#8 + 1#8 + 1#8)], flags := allFlags (s.byteAt (stackAddr (s.sp + 1#8))),
      pc := some (joinBytes (s.byteAt (stackAddr (s.sp + 1#8 + 1#8 + 1#8))) (s.byteAt (stackAddr (s.sp + 1#8 + 1#8)))) }

theorem execPlp_does (s : State) : Does (Op.pullStatus.effect s) s (execPlp s) :=
  does_next (by simp [Op.effect]) (by simp +contextual [Op.effect]) (allFlags_of_setP _ s)
    (fun f hf => absurd (allFlags_complete _ f) hf) (by simp [Op.effect]) (by simp) (by simp [Op.effect]) (by simp)
    (by simp [Op.effect])

theorem execRti_does (s : State) : Does (Op.pullStatusAndPC.effect s) s (execRti s) :=
  does_next (by simp [Op.effect, pullStatusAndPC_eq]) (by simp +contextual [Op.effect, pullStatusAndPC_eq])
    (allFlags_of_setP _ s) (fun f hf => absurd (allFlags_complete _ f) hf) (by simp [Op.effect])
    (by simp [pullStatusAndPC_eq]) (by simp [Op.effect, pullStatusAndPC_eq]) (by simp [pullStatusAndPC_eq])
    (by simp [Op.effect, pullStatusAndPC_eq])

theorem setReg_does (r : Reg) (v : Byte) (s : State) : Does { regs := [(r, v)] } s (.next (s.setReg r v)) :=
  does_next (by simp) (by simp +contextual) (by simp) (by simp) (by simp) (by simp) (by simp) (by simp) (by simp)

theorem setPC_does (pc : Addr) (s : State) : Does { pc := some pc } s (.next (s.setPC pc)) :=
  does_next (by simp) (by simp) (by simp) (by simp) (by simp) (by simp) (by simp) (by simp) (by simp)

theorem setOutcome_does (e : Ending) (s : State) : Does { outcome := some e } s (.next (s.setOutcome e)) :=
  does_next (by simp) (by simp) (by simp) (by simp) (by simp) (by simp) (by simp) (by simp) (by simp)

theorem unchanged_does (s : State) : Does {} s (.next s) :=
  does_next (by simp) (by simp) (by simp) (by simp) (by simp) (by simp) (by simp) (by simp) (by simp)

/-- An operation does what its effect lists and nothing else. -/
theorem Op.run_does (op : Op) (s : State) : Does (op.effect s) s (op.run s) := by
  cases op with
  | load r src => exact loadReg_does r _ s
  | store r mode => exact storeByte_does mode _ s
  | storeZero mode => exact storeByte_does mode _ s
  | add src => exact writeSum_does_sumEffect _ s
  | subtract src => exact writeSum_does_sumEffect _ s
  | modifyMem f mode => exact modifyByte_does (f s.a) mode s
  | modifyReg f r => exact modifyReg_does f r s
  | combine f src => exact combineA_does f _ s
  | shiftAcc f => exact shiftA_does _ s
  | shiftMem f mode => exact shiftByte_does _ mode s
  | compare r src => exact compareReg_does r _ s
  | branch taken f d => exact branchIf_does _ d s
  | branchAlways d => exact branchIf_does true d s
  | writeFlag f b => exact writeFlag_does f b s
  | pushReg r => exact pushByte_does _ s
  | pushStatus => exact pushByte_does _ s
  | pullReg r notSP => exact pullReg_does r notSP s
  | pullStatus => exact execPlp_does s
  | loadXFromSP => exact loadReg_does .x s.sp s
  | loadSPFromX => exact setReg_does .sp s.x s
  | jump mode => exact setPC_does _ s
  | halt => exact setOutcome_does .halt s
  | nothing => exact unchanged_does s
  | pullStatusAndPC => exact execRti_does s

/-- A meaning does what its operation's effect lists and nothing else. -/
theorem exec_does (i : Instr) (s : State) : Does ((opOf i).effect s) s (exec i s) :=
  exec_eq_run i s ▸ (opOf i).run_does s

theorem does_of_exec {i : Instr} {s t : State} (h : exec i s = .next t) : Does ((opOf i).effect s) s (.next t) :=
  h ▸ exec_does i s

/-! ## The write matrices

What an effect lists is, instruction by instruction, what the tables of the claims list. -/

theorem effect_flags (i : Instr) (s : State) : ((opOf i).effect s).flags.map Prod.fst = flagsWritten i.mnemonic := by
  cases i <;> rfl

theorem effect_regs (i : Instr) (s : State) : ((opOf i).effect s).regs.map Prod.fst = regsWritten i := by
  cases i <;> rfl

theorem effect_pc (i : Instr) (s : State) : ((opOf i).effect s).pc.isSome = setsPC i.mnemonic := by
  cases i <;> rfl

theorem effect_outcome {i : Instr} (h : i ≠ .brk) (s : State) : ((opOf i).effect s).outcome = none := by
  cases i
  case brk => contradiction
  all_goals rfl

theorem exec_flag_unchanged {i : Instr} {s t : State} (h : exec i s = .next t) {f : Flag}
    (hf : f ∉ flagsWritten i.mnemonic) : t.flag f = s.flag f := by
  obtain ⟨_, ⟨⟩, -, -, -, hframe, -⟩ := does_of_exec h
  exact hframe f (effect_flags i s ▸ hf)

theorem exec_reg_unchanged {i : Instr} {s t : State} (h : exec i s = .next t) {r : Reg} (hr : r ∉ regsWritten i) :
    t.reg r = s.reg r := by
  obtain ⟨_, ⟨⟩, -, hframe, -⟩ := does_of_exec h
  exact hframe r (effect_regs i s ▸ hr)

theorem exec_pc_unchanged {i : Instr} {s t : State} (h : exec i s = .next t) (hpc : setsPC i.mnemonic = false) :
    t.pc = s.pc := by
  obtain ⟨_, ⟨⟩, -, -, -, -, -, -, ht_pc, -⟩ := does_of_exec h
  have hnone : ((opOf i).effect s).pc = none := by simpa [hpc] using effect_pc i s
  simpa [hnone] using ht_pc

theorem exec_ic {i : Instr} {s t : State} (h : exec i s = .next t) : t.ic = s.ic := by
  obtain ⟨_, ⟨⟩, -, -, -, -, -, -, -, hic, -⟩ := does_of_exec h
  exact hic

theorem exec_outcome_unchanged {i : Instr} {s t : State} (h : exec i s = .next t) (hi : i ≠ .brk) :
    t.outcome = s.outcome := by
  obtain ⟨_, ⟨⟩, -, -, -, -, -, -, -, -, ho⟩ := does_of_exec h
  simpa [effect_outcome hi] using ho

/-! ## What no operation reads -/

@[simp] theorem operandByte_setFlag (src : Operand) (s : State) (f : Flag) (b : Bool) :
    operandByte src (s.setFlag f b) = operandByte src s := by
  cases src <;> simp [operandByte, operandAt]

@[simp] theorem operandByte_setIC (src : Operand) (s : State) (n : Nat) :
    operandByte src (s.setIC n) = operandByte src s := by
  cases src <;> simp [operandByte, operandAt]

@[simp] theorem branchTarget_setFlag (d : Byte) (s : State) (f : Flag) (b : Bool) :
    branchTarget d (s.setFlag f b) = branchTarget d s := rfl

/-- The flags an operation reads; PHP reads them all. -/
def Op.flagsRead : Op → List Flag
  | .add _ | .subtract _ | .shiftAcc _ | .shiftMem _ _ => [.c]
  | .branch _ f _ => [f]
  | .pushStatus => [.c, .z, .i, .d, .b, .u, .v, .n]
  | _ => []

/-- Changing a flag that an operation does not read changes nothing of what it writes. -/
theorem Op.effect_setFlag (op : Op) (s : State) {f : Flag} (b : Bool) (hf : f ∉ op.flagsRead) :
    op.effect (s.setFlag f b) = op.effect s := by
  have hread : ∀ g ∈ op.flagsRead, (s.setFlag f b).flag g = s.flag g := fun g hg => by
    have hne : g ≠ f := fun h => hf (h ▸ hg)
    simp [hne]
  cases op with
  | pushStatus => cases f <;> simp [flagsRead] at hf
  -- P reaches every other effect through the flags of `hread` alone.
  | _ => simp_all [flagsRead, effect, -setFlag_flag]

/-- PHP alone reads a flag that is storage only (R33, R34). -/
theorem notMem_flagsRead_of_ne_php {i : Instr} (h : i ≠ .php) {f : Flag} (hf : f ∈ [Flag.i, .d, .b, .u]) :
    f ∉ (opOf i).flagsRead := by
  have hread : ((opOf i).flagsRead.all fun g => g ∉ [Flag.i, .d, .b, .u]) = true := by
    cases i
    case php => contradiction
    all_goals rfl
  exact fun hmem => of_decide_eq_true (List.all_eq_true.mp hread f hmem) hf

/-- Two maps written at the same places with the same values agree wherever the maps before did. -/
theorem written_agree {α β : Type} {written : List (α × β)} {before after before' after' : α → β}
    (hw : ∀ w ∈ written, after w.1 = w.2) (hframe : ∀ a, a ∉ written.map Prod.fst → after a = before a)
    (hw' : ∀ w ∈ written, after' w.1 = w.2) (hframe' : ∀ a, a ∉ written.map Prod.fst → after' a = before' a)
    {a : α} (h : before' a = before a) : after' a = after a := by
  by_cases ha : a ∈ written.map Prod.fst
  · obtain ⟨w, hmem, rfl⟩ := List.mem_map.mp ha
    rw [hw w hmem, hw' w hmem]
  · rw [hframe a ha, hframe' a ha, h]

/-- One effect at two states that differ in the flag `f` alone leaves states that agree on all but `f`. -/
theorem does_setFlag_agree {e : Effect} {s t t' : State} {f : Flag} {b : Bool} (h : Does e s (.next t))
    (h' : Does e (s.setFlag f b) (.next t')) :
    (∀ r, t'.reg r = t.reg r) ∧ t'.pc = t.pc ∧ (∀ a, t'.byteAt a = t.byteAt a) ∧
      ∀ g, g ≠ f → t'.flag g = t.flag g := by
  obtain ⟨_, ⟨⟩, hr, hr', hf, hf', hb, hb', hpc, -⟩ := h
  obtain ⟨_, ⟨⟩, kr, kr', kf, kf', kb, kb', kpc, -⟩ := h'
  exact ⟨fun r => written_agree hr hr' kr kr' (by simp), by simp [hpc, kpc],
    fun a => written_agree hb hb' kb kb' (by simp), fun g hg => written_agree hf hf' kf kf' (by simp [hg])⟩

/-! ## IC -/

/-- An operation does the same whatever IC holds, and keeps it. -/
theorem Op.run_setIC (op : Op) (s : State) (n : Nat) :
    ∃ t, op.run s = .next t ∧ op.run (s.setIC n) = .next (t.setIC n) := by
  cases op with
  | load r src => exact ⟨_, rfl, by rw [run, operandByte_setIC]; cases r <;> rfl⟩
  | add src | subtract src | combine f src | compare r src => exact ⟨_, rfl, by rw [run, operandByte_setIC]; rfl⟩
  | modifyReg f r | pullReg r notSP => exact ⟨_, rfl, by cases r <;> rfl⟩
  | branch taken f d => exact ⟨_, rfl, by rw [run, State.setIC_flag]; cases taken (s.flag f) <;> rfl⟩
  | _ => exact ⟨_, rfl, rfl⟩

/-- No meaning reads IC (R42). -/
theorem exec_setIC {i : Instr} {s t : State} (h : exec i s = .next t) (n : Nat) :
    exec i (s.setIC n) = .next (t.setIC n) := by
  obtain ⟨u, hu, hun⟩ := (opOf i).run_setIC s n
  rw [exec_eq_run, hu] at h
  cases h
  rw [exec_eq_run, hun]

theorem madeAt_setIC (s : State) (n : Nat) (g : Handler) : madeAt (s.setIC n) g = madeAt s g := by
  cases g <;> rfl

/-- A fetch does the same whatever IC holds, and keeps it. -/
theorem fetchInstr_setIC (s : State) (n : Nat) :
    fetchInstr (s.setIC n) = (fetchInstr s).map fun iu => (iu.1, iu.2.setIC n) := by
  by_cases hpc : s.pc = Config.topAddr
  · rw [fetchInstr_top hpc, fetchInstr_top (s := s.setIC n) hpc]
    rfl
  · cases hh : handlerOf (s.byteAt s.pc) with
    | none =>
      rw [fetchInstr_unassigned hpc hh, fetchInstr_unassigned (s := s.setIC n) hpc hh]
      rfl
    | some g =>
      rw [fetchInstr_handler hpc hh, fetchInstr_handler (s := s.setIC n) hpc hh, madeAt_setIC, State.setIC_pc]
      by_cases hle : s.pc.toNat + g.length ≤ 65535 <;> simp only [hle, ↓reduceIte] <;> rfl

/-- A step that faults stopped at the fetch. -/
theorem fetchInstr_of_step_fault {s : State} {f : Fault} (h : step s = .fault f) : fetchInstr s = .error f := by
  cases hf : fetchInstr s with
  | error e =>
    rw [step_of_error hf] at h
    cases h
    rfl
  | ok iu =>
    obtain ⟨t, ht⟩ := exec_next iu.1 (iu.2.setOutcome .running)
    rw [step_of_fetch hf, ht] at h
    cases h

/-! ## The obligations -/

/-- Settles O13: every part of the reset state is a literal; memory is the empty list, which is in canonical form. -/
theorem resetStateIsAllZero : Obligations.ResetStateIsAllZero := by
  unfold Obligations.ResetStateIsAllZero
  exact ⟨fun r => by cases r <;> rfl, rfl, rfl, rfl, rfl, fun f => by cases f <;> rfl, nil_wf⟩

/-- Settles O18: the fetch and the meaning keep IC, and the step adds one. -/
theorem completedStepCountsOne : Obligations.CompletedStepCountsOne := by
  unfold Obligations.CompletedStepCountsOne
  intro s t h
  obtain ⟨i, u, v, hfetch, hexec, rfl⟩ := step_next h
  obtain ⟨_, _, _, _, rfl⟩ := fetchInstr_ok hfetch
  simpa using exec_ic hexec

/-- Settles O19: neither the fetch nor a meaning reads IC. -/
theorem nothingReadsIC : Obligations.NothingReadsIC := by
  unfold Obligations.NothingReadsIC
  refine fun s n => ⟨fun t h => ?_, fun f h => ?_⟩
  · obtain ⟨i, u, v, hfetch, hexec, rfl⟩ := step_next h
    have hfetch' : fetchInstr (s.setIC n) = .ok (i, u.setIC n) := by rw [fetchInstr_setIC, hfetch]; rfl
    have hexec' : exec i ((u.setIC n).setOutcome .running) = .next (v.setIC n) := exec_setIC hexec n
    rw [step_of_fetch hfetch', hexec']
    rfl
  · have hfetch := fetchInstr_of_step_fault h
    exact step_of_error (by rw [fetchInstr_setIC, hfetch]; rfl)

/-- Settles O20: the flags a meaning writes are those of its row of R38. -/
theorem flagWriteMatrix : Obligations.FlagWriteMatrix := by
  unfold Obligations.FlagWriteMatrix
  exact fun _ _ _ _ h hf => exec_flag_unchanged h hf

/-- Settles O21: the registers, PC and the record that a meaning writes are those of the tables; no effect has IC in it. -/
theorem registerWriteMatrix : Obligations.RegisterWriteMatrix := by
  unfold Obligations.RegisterWriteMatrix
  exact fun _ _ _ h => ⟨fun _ => exec_reg_unchanged h, exec_pc_unchanged h, exec_ic h, exec_outcome_unchanged h⟩

/-- Settles O24: no instruction but PHP reads I, D, B or U, so it has one effect at both states. -/
theorem storageFlagsInfluenceNothing : Obligations.StorageFlagsInfluenceNothing := by
  unfold Obligations.StorageFlagsInfluenceNothing
  intro i s t f b hi hf hexec
  obtain ⟨t', hexec'⟩ := exec_next i (s.setFlag f b)
  have hsame : (opOf i).effect (s.setFlag f b) = (opOf i).effect s :=
    Op.effect_setFlag _ s b (notMem_flagsRead_of_ne_php hi hf)
  exact ⟨t', hexec', does_setFlag_agree (does_of_exec hexec) (hsame ▸ does_of_exec hexec')⟩

end Sys2Proof.Proofs
end

section
/-! Memory (spec/20_memory.md): what a step leaves in the written memory, where an operation reads and writes
(`operationAccesses_eq`: the accesses of the spec's decision D10 are the reads of `Op.reads` and then the writes of
`Op.effect`), and that nothing else of memory matters to it. -/

namespace Sys2Proof.Proofs

open Sys2Proof.Machine Sys2Proof.Laws

/-! ## The memory a step leaves -/

/-- The memory after writes one after the other. -/
def writeEach (m : Memory) (bytes : List (Addr × Byte)) : Memory :=
  bytes.foldl (fun mem w => mem.write w.1 w.2) m

theorem writeEach_wf {m : Memory} (h : m.wf) (bytes : List (Addr × Byte)) : (writeEach m bytes).wf := by
  induction bytes generalizing m with
  | nil => exact h
  | cons w rest ih => exact ih (write_wf h w.1 w.2)

/-- The list of written bytes an operation leaves: the bytes of its effect, written into the list it found. -/
theorem Op.run_mem (op : Op) (s : State) :
    ∃ t, op.run s = .next t ∧ t.mem = writeEach s.mem (op.effect s).bytes := by
  cases op with
  | load r src | modifyReg f r | pullReg r notSP => exact ⟨_, rfl, by cases r <;> rfl⟩
  | branch taken f d => exact ⟨_, rfl, by cases taken (s.flag f) <;> rfl⟩
  | _ => exact ⟨_, rfl, rfl⟩

theorem exec_mem {i : Instr} {s t : State} (h : exec i s = .next t) :
    t.mem = writeEach s.mem ((opOf i).effect s).bytes := by
  obtain ⟨u, hrun, hmem⟩ := (opOf i).run_mem s
  rw [exec_eq_run, hrun] at h
  cases h
  exact hmem

theorem exec_keeps_inv {i : Instr} {s t : State} (hs : s.Inv) (h : exec i s = .next t) : t.Inv := by
  rw [State.Inv, exec_mem h]
  exact writeEach_wf hs _

/-! ## Where an operation reads and writes -/

/-- The addresses of a zero-page pointer's bytes, for the modes that have one (R95). -/
def pointerAddrs : AddrMode → State → List Addr
  | .indx z, s => [zeroPage (z + s.x), zeroPage (z + s.x + 1#8)]
  | .indy z, _ | .zpi z, _ => [zeroPage z, zeroPage (z + 1#8)]
  | .zp _, _ | .zpx _, _ | .zpy _, _ | .abs _, _ | .absx _, _ | .absy _, _ => []

/-- The addresses read to deliver an operand's byte. -/
def operandReads : Operand → State → List Addr
  | .mem mode, s => pointerAddrs mode s ++ [resolve mode s]
  | .imm _, _ | .implied, _ | .acc, _ | .rel _, _ => []

/-- The addresses an operation reads, in order (R57). -/
def Op.reads : Op → State → List Addr
  | .load _ src, s | .add src, s | .subtract src, s | .combine _ src, s | .compare _ src, s => operandReads src s
  | .modifyMem _ mode, s | .shiftMem _ mode, s => operandReads (.mem mode) s
  | .store _ mode, s | .storeZero mode, s | .jump mode, s => pointerAddrs mode s
  | .pullReg _ _, s | .pullStatus, s => [stackAddr (s.sp + 1#8)]
  | .pullStatusAndPC, s =>
    [stackAddr (s.sp + 1#8), stackAddr (s.sp + 1#8 + 1#8), stackAddr (s.sp + 1#8 + 1#8 + 1#8)]
  | .modifyReg _ _, _ | .shiftAcc _, _ | .branch _ _ _, _ | .branchAlways _, _ | .writeFlag _ _, _ | .pushReg _, _
  | .pushStatus, _ | .loadXFromSP, _ | .loadSPFromX, _ | .halt, _ | .nothing, _ => []

/-- An instruction's accesses are its operation's reads and then the writes its effect lists. -/
theorem operationAccesses_eq (i : Instr) (s : State) :
    operationAccesses i s =
      ((opOf i).reads s).map .read ++ (((opOf i).effect s).bytes.map Prod.fst).map .write := by
  cases i <;> rfl

theorem read_mem_operationAccesses {i : Instr} {s : State} {a : Addr} :
    Access.read a ∈ operationAccesses i s ↔ a ∈ (opOf i).reads s := by
  simp [operationAccesses_eq]

theorem write_mem_operationAccesses {i : Instr} {s : State} {a : Addr} :
    Access.write a ∈ operationAccesses i s ↔ a ∈ ((opOf i).effect s).bytes.map Prod.fst := by
  simp [operationAccesses_eq]

theorem Op.effect_bytes_length_le (op : Op) (s : State) : (op.effect s).bytes.length ≤ 1 := by
  cases op <;> simp [effect, sumEffect, loads, stores, modifies]

/-! ## What an operation reads is all that memory is to it

`m` is another memory that holds, at the addresses read, the bytes `s` has there. -/

section

variable {s : State} {m : Memory}

theorem readWordZP_setMem {p : Byte} (hlo : m.read (zeroPage p) = s.byteAt (zeroPage p))
    (hhi : m.read (zeroPage (p + 1#8)) = s.byteAt (zeroPage (p + 1#8))) :
    readWordZP p (s.setMem m) = readWordZP p s := by
  simp [readWordZP, hlo, hhi]

theorem resolve_setMem {mode : AddrMode} (h : ∀ a ∈ pointerAddrs mode s, m.read a = s.byteAt a) :
    resolve mode (s.setMem m) = resolve mode s := by
  cases mode with
  | indx z | indy z | zpi z =>
    simp only [pointerAddrs, List.forall_mem_cons] at h
    obtain ⟨hlo, hhi, -⟩ := h
    simp [resolve, eaIndx, eaIndy, eaZpi, readWordZP_setMem hlo hhi]
  | zp _ | zpx _ | zpy _ | abs _ | absx _ | absy _ => rfl

theorem resolve_and_read_setMem {mode : AddrMode} (h : ∀ a ∈ operandReads (.mem mode) s, m.read a = s.byteAt a) :
    resolve mode (s.setMem m) = resolve mode s ∧ m.read (resolve mode s) = s.byteAt (resolve mode s) := by
  simp only [operandReads, List.forall_mem_append, List.forall_mem_singleton] at h
  obtain ⟨hpointer, hbyte⟩ := h
  exact ⟨resolve_setMem hpointer, hbyte⟩

theorem operandByte_setMem {src : Operand} (h : ∀ a ∈ operandReads src s, m.read a = s.byteAt a) :
    operandByte src (s.setMem m) = operandByte src s := by
  cases src with
  | mem mode =>
    obtain ⟨hea, hbyte⟩ := resolve_and_read_setMem h
    simp [operandByte, operandAt, hea, hbyte]
  | imm _ | implied | acc | rel _ => rfl

/-- Over a memory that agrees where it reads, an operation writes the same. -/
theorem Op.effect_setMem {op : Op} (h : ∀ a ∈ op.reads s, m.read a = s.byteAt a) :
    op.effect (s.setMem m) = op.effect s := by
  cases op with
  | load _ src | add src | subtract src | combine _ src | compare _ src =>
    simp [effect, operandByte_setMem (src := src) h]
  | modifyMem _ mode | shiftMem _ mode =>
    obtain ⟨hea, hbyte⟩ := resolve_and_read_setMem (mode := mode) h
    simp [effect, hea, hbyte]
  | store _ mode | storeZero mode | jump mode => simp [effect, resolve_setMem (mode := mode) h]
  | pullReg _ _ | pullStatus | pullStatusAndPC =>
    simp only [reads, List.forall_mem_cons] at h
    simp [effect, h]
  | modifyReg _ r | pushReg r => cases r <;> rfl
  | shiftAcc _ | branch _ _ _ | branchAlways _ | writeFlag _ _ | pushStatus | loadXFromSP | loadSPFromX | halt
  | nothing => rfl

end

/-- One effect over two memories leaves states that agree on all but memory, and there on what the effect writes. -/
theorem does_setMem_agree {e : Effect} {s t t' : State} {m : Memory} (h : Does e s (.next t))
    (h' : Does e (s.setMem m) (.next t')) :
    (∀ r, t'.reg r = t.reg r) ∧ t'.p = t.p ∧ t'.pc = t.pc ∧ t'.ic = t.ic ∧
      ∀ a ∈ e.bytes.map Prod.fst, t'.byteAt a = t.byteAt a := by
  obtain ⟨_, ⟨⟩, hr, hr', hf, hf', hb, -, hpc, hic, -⟩ := h
  obtain ⟨_, ⟨⟩, kr, kr', kf, kf', kb, -, kpc, kic, -⟩ := h'
  refine ⟨fun r => written_agree hr hr' kr kr' (by simp), status_ext fun f => written_agree hf hf' kf kf' rfl,
    by simp [hpc, kpc], by simp [hic, kic], fun a ha => ?_⟩
  obtain ⟨w, hw, rfl⟩ := List.mem_map.mp ha
  rw [hb w hw, kb w hw]

/-! ## The bytes a step fetches -/

theorem handler_length_pos (g : Handler) : 1 ≤ g.length := by
  cases g <;> simp [Handler.length]

/-- The fetch delivers the instruction that the bytes at PC decode to, when every byte of it lies below 0xFFFF (R91). -/
theorem fetchInstr_of_decode {s : State} {i : Instr} {rest : List Byte} (hd : decode (bytesAtPC s) = .ok (i, rest))
    (hw : i.wellFormedAt s.pc = true) : fetchInstr s = .ok (i, s.setPC (s.pc + BitVec.ofNat 16 i.length)) := by
  cases hh : handlerOf (s.byteAt s.pc) with
  | none => simp [bytesAtPC, decode, hh] at hd
  | some g =>
    obtain ⟨rest', hmade⟩ := decode_madeAt hh
    obtain ⟨rfl, -⟩ : i = madeAt s g ∧ rest = rest' := by simpa [hd] using hmade
    have hlen := madeAt_length hh
    have hfits : s.pc.toNat + g.length ≤ 65535 := by simpa [Instr.wellFormedAt, Config.topAddr, hlen] using hw
    have hbelow : s.pc ≠ Config.topAddr := (ne_top_iff s.pc).mpr (by have := handler_length_pos g; omega)
    rw [fetchInstr_handler hbelow hh, if_pos hfits, hlen]

/-- A step that runs out of address space had set out to fetch the byte at 0xFFFF. -/
theorem fetchLength_of_exhausted {s : State} (h : fetchInstr s = .error .addressSpaceExhausted) :
    65536 ≤ s.pc.toNat + fetchLength s := by
  by_cases hpc : s.pc = Config.topAddr
  · have hpos : 1 ≤ fetchLength s := by
      unfold fetchLength
      split
      · exact Nat.le_refl 1
      · exact handler_length_pos _
    simp only [hpc, Config.topAddr, BitVec.toNat_ofNat]
    omega
  · cases hh : handlerOf (s.byteAt s.pc) with
    | none => simp [fetchInstr_unassigned hpc hh] at h
    | some g =>
      rw [fetchInstr_handler hpc hh] at h
      split at h
      · cases h
      · simp only [fetchLength, hh]
        omega

/-! ## The obligations -/

/-- Settles O12: the fetch writes nothing, and the meaning writes the bytes of its effect, each of which keeps the form. -/
theorem stepKeepsMemoryCanonical : Obligations.StepKeepsMemoryCanonical := by
  unfold Obligations.StepKeepsMemoryCanonical
  intro s t hs h
  obtain ⟨i, u, v, hfetch, hexec, rfl⟩ := step_next h
  obtain ⟨g, -, -, -, rfl⟩ := fetchInstr_ok hfetch
  have hfetched : ((s.setPC (s.pc + BitVec.ofNat 16 g.length)).setOutcome .running).Inv := hs
  have hv : v.Inv := exec_keeps_inv hfetched hexec
  exact hv

/-- Settles O22: the addresses of an instruction's write accesses are those its effect writes. -/
theorem memoryChangesOnlyWhereAccessed : Obligations.MemoryChangesOnlyWhereAccessed := by
  unfold Obligations.MemoryChangesOnlyWhereAccessed
  intro i s t a h ha
  obtain ⟨_, ⟨⟩, -, -, -, -, -, hframe, -⟩ := does_of_exec h
  exact hframe a (mt write_mem_operationAccesses.mpr ha)

/-- Settles O23: over a memory that agrees at the addresses read, the instruction has the same effect. -/
theorem meaningReadsOnlyWhereItAccesses : Obligations.MeaningReadsOnlyWhereItAccesses := by
  unfold Obligations.MeaningReadsOnlyWhereItAccesses
  intro i s t m hagree h
  have hsame : (opOf i).effect (s.setMem m) = (opOf i).effect s :=
    Op.effect_setMem fun a ha => hagree a (read_mem_operationAccesses.mpr ha)
  obtain ⟨t', h'⟩ := exec_next i (s.setMem m)
  obtain ⟨hreg, hp, hpc, hic, hbytes⟩ := does_setMem_agree (does_of_exec h) (hsame ▸ does_of_exec h')
  exact ⟨t', h', hreg, hp, hpc, hic, fun a ha => hbytes a (write_mem_operationAccesses.mp ha)⟩

/-- Settles O26: the fetches end with the instruction or at 0xFFFF; the operation's reads and its at most one write follow
a fetch that succeeded. -/
theorem accessesComeInOrder : Obligations.AccessesComeInOrder := by
  unfold Obligations.AccessesComeInOrder
  refine ⟨fun s i rest hd hw => ?completes, fun s op a h => ?unassigned, fun s h => ?exhausted⟩
  case completes =>
    obtain ⟨u, hfetch⟩ : ∃ u, fetchInstr s = .ok (i, u) := ⟨_, fetchInstr_of_decode hd hw⟩
    have hfits : s.pc.toNat + i.length ≤ 65535 := by simpa [Instr.wellFormedAt, Config.topAddr] using hw
    refine ⟨(opOf i).reads u, ((opOf i).effect u).bytes.map Prod.fst, ?_, ?_⟩
    · rw [List.length_map]
      exact Op.effect_bytes_length_le _ _
    · rw [accesses_of_fetch hfetch, fetches_eq, Nat.min_eq_left (by omega), operationAccesses_eq]
  case unassigned =>
    have hfetch := fetchInstr_of_step_fault h
    rcases fetchInstr_error hfetch with hf | ⟨-, -, hnone⟩
    · cases hf
    · simp [accesses_of_error hfetch, fetchLength, hnone, fetches]
  case exhausted =>
    have hfetch := fetchInstr_of_step_fault h
    have hreach := fetchLength_of_exhausted hfetch
    rw [accesses_of_error hfetch, fetches_eq, Nat.min_eq_right (by omega)]

/-- Settles O11: a write is seen by every later read, and a fetch delivers what a read of PC gives. -/
theorem byteHoldsTheLastWrite : Obligations.ByteHoldsTheLastWrite := by
  unfold Obligations.ByteHoldsTheLastWrite
  refine fun s a b v => ⟨byteAt_writeByte s a b v, fun hpc => ?_, rfl⟩
  rw [fetchByte_below (s := s.writeByte a v) hpc, byteAt_writeByte, State.writeByte_pc]

end Sys2Proof.Proofs
end

section
/-! Encoding (spec/30_encoding.md): the decoder is the inverse of the encoder (`decode_encode`, `encode_of_decode`), the byte
values with no handler are those of R80, and an assembled displacement takes a branch to its label. -/

namespace Sys2Proof.Proofs

open Sys2Proof.Machine Sys2Proof.Laws

/-! ## What a handler makes -/

/-- The instructions a handler makes, one for each value of the operand it consumes. -/
inductive Makes : Handler → Instr → Prop where
  | noOperand (i : Instr) : Makes (.noOperand i) i
  | oneByte (f : Byte → Instr) (b : Byte) : Makes (.oneByte f) (f b)
  | twoBytes (f : Addr → Instr) (w : Addr) : Makes (.twoBytes f) (f w)

/-- The handler at an instruction's opcode byte makes it (R74, R75): the one place where the 163 opcode
bytes are looked up. -/
theorem handlerOf_opcode (i : Instr) : ∃ h, handlerOf i.opcode = some h ∧ Makes h i := by
  cases i
  all_goals
    rw [Instr.opcode]
    exact ⟨_, rfl, by constructor⟩

theorem opcode_of_makes {op : Byte} {h : Handler} {i : Instr} (hs : Sound op h) (hm : Makes h i) : i.opcode = op := by
  cases hm with
  | noOperand i => exact hs.1
  | oneByte f b => exact (hs b).1
  | twoBytes f w => exact (hs w).1

/-- A handler reads the operand bytes of an instruction it makes, and leaves what follows them. -/
theorem readOperands_of_makes {op : Byte} {h : Handler} {i : Instr} (hs : Sound op h) (hm : Makes h i)
    (rest : List Byte) : readOperands h (i.operand.bytes ++ rest) = .ok (i, rest) := by
  cases hm with
  | noOperand i =>
    obtain ⟨-, -, hbytes⟩ := hs
    simp [hbytes, readOperands]
  | oneByte f b =>
    obtain ⟨-, -, hbytes⟩ := hs b
    simp [hbytes, readOperands]
  | twoBytes f w =>
    obtain ⟨-, -, hbytes⟩ := hs w
    simp [hbytes, wordBytes, readOperands]

/-- What a handler reads is an instruction it makes, and the bytes read are that instruction's operand bytes. -/
theorem makes_of_readOperands {op : Byte} {h : Handler} {bs rest : List Byte} {i : Instr} (hs : Sound op h)
    (hr : readOperands h bs = .ok (i, rest)) : Makes h i ∧ i.operand.bytes ++ rest = bs := by
  match h, bs, hr with
  | .noOperand i, _, rfl =>
    obtain ⟨-, -, hbytes⟩ := hs
    exact ⟨.noOperand i, by simp [hbytes]⟩
  | .oneByte f, b :: _, rfl =>
    obtain ⟨-, -, hbytes⟩ := hs b
    exact ⟨.oneByte f b, by simp [hbytes]⟩
  | .twoBytes f, lo :: hi :: _, rfl =>
    obtain ⟨-, -, hbytes⟩ := hs (joinBytes hi lo)
    exact ⟨.twoBytes f _, by simp [hbytes, wordBytes]⟩

/-! ## The decoder is the inverse of the encoder -/

theorem decode_encode (i : Instr) (rest : List Byte) : decode (encode i ++ rest) = .ok (i, rest) := by
  obtain ⟨h, hh, hm⟩ := handlerOf_opcode i
  simp [encode, decode, hh, readOperands_of_makes (handlerOf_sound hh) hm]

theorem encode_of_decode {bs rest : List Byte} {i : Instr} (hd : decode bs = .ok (i, rest)) :
    encode i ++ rest = bs := by
  cases bs with
  | nil => simp [decode] at hd
  | cons op bs =>
    cases hh : handlerOf op with
    | none => simp [decode, hh] at hd
    | some h =>
      have hs := handlerOf_sound hh
      have hr : readOperands h bs = .ok (i, rest) := by simpa [decode, hh] using hd
      obtain ⟨hm, hbytes⟩ := makes_of_readOperands hs hr
      rw [encode, opcode_of_makes hs hm, List.cons_append, hbytes]

/-! ## The bytes with no handler -/

/-- R80's list is what is left of the 256 byte values, in order, when those with a handler are taken out. -/
theorem unassignedBytes_eq_filter :
    unassignedBytes = ((List.range 256).map (BitVec.ofNat 8)).filter fun b => (handlerOf b).isNone := by
  decide +kernel

theorem byte_mem_range (b : Byte) : b ∈ (List.range 256).map (BitVec.ofNat 8) :=
  List.mem_map.mpr ⟨b.toNat, List.mem_range.mpr b.isLt, by simp⟩

theorem handlerOf_eq_none_iff (b : Byte) : handlerOf b = none ↔ b ∈ unassignedBytes := by
  rw [unassignedBytes_eq_filter, List.mem_filter, Option.isNone_iff_eq_none]
  exact (and_iff_right (byte_mem_range b)).symm

theorem singleStep_of_unassigned {s : State} {op : Byte} {a : Addr} (h : step s = .fault (.unassignedOpcode op a)) :
    singleStep s = some (.unassignedOpcode op a, s.setPC (a + 1#16)) := by
  simp [singleStep, h, stopState]

/-! ## The displacement of a branch -/

theorem assembleRel_eq_some_iff {target a : Addr} {d : Byte} :
    assembleRel target a = some d ↔
      -128 ≤ (target.toNat : Int) - (a.toNat + 2) ∧ (target.toNat : Int) - (a.toNat + 2) ≤ 127 ∧
        BitVec.ofInt 8 (target.toNat - (a.toNat + 2)) = d := by
  simp only [assembleRel, Option.ite_none_right_eq_some, Option.some.injEq, and_assoc]

theorem assembleRel_eq_none_iff {target a : Addr} :
    assembleRel target a = none ↔
      (target.toNat : Int) - (a.toNat + 2) < -128 ∨ 127 < (target.toNat : Int) - (a.toNat + 2) := by
  simp only [assembleRel, ite_eq_right_iff, reduceCtorEq, imp_false]
  omega

/-- A distance that fits in a displacement byte is what the byte extends to. -/
theorem signExtend_ofInt {d : Int} (hlo : -128 ≤ d) (hhi : d ≤ 127) :
    (BitVec.ofInt 8 d).signExtend 16 = BitVec.ofInt 16 d := by
  rw [BitVec.signExtend, BitVec.toInt_ofInt_eq_self (by decide) (by omega) (by omega)]

/-- An address and the distance from it to another, as numbers, make that other address. -/
theorem add_ofInt_distance (target a : Addr) :
    a + 2#16 + BitVec.ofInt 16 (target.toNat - (a.toNat + 2)) = target := by
  have hfrom : a + 2#16 = BitVec.ofInt 16 (a.toNat + 2) := by
    rw [BitVec.ofInt_add]
    simp
  have hsum : (a.toNat : Int) + 2 + (target.toNat - (a.toNat + 2)) = target.toNat := by omega
  rw [hfrom, ← BitVec.ofInt_add, hsum]
  simp

/-! ## The obligations -/

/-- Settles O1: the handler at the opcode byte of an instruction makes it back from its operand bytes. -/
theorem decodeOfEncodeIsTheInstruction : Obligations.DecodeOfEncodeIsTheInstruction := by
  unfold Obligations.DecodeOfEncodeIsTheInstruction
  exact decode_encode

/-- Settles O2: every handler of the table makes instructions with the opcode byte it stands at and the operand bytes it
read. -/
theorem encodeOfDecodeIsTheBytes : Obligations.EncodeOfDecodeIsTheBytes := by
  unfold Obligations.EncodeOfDecodeIsTheBytes
  exact fun _ _ _ => encode_of_decode

/-- Settles O3: the bytes are the encodings of the instructions. -/
theorem nineShownOpcodesDecode : Obligations.NineShownOpcodesDecode := by
  unfold Obligations.NineShownOpcodesDecode
  exact ⟨decode_encode .brk [], decode_encode (.ldaImm 0x42#8) [], decode_encode (.andImm 0xF0#8) [],
    decode_encode .lsrAcc [], decode_encode .pha [], decode_encode .pla [], decode_encode .tsx [],
    decode_encode (.staZp 0x20#8) [], decode_encode (.incZp 0x20#8) []⟩

/-- Settles O6: the map leaves out the bytes of R80, and the fetch of one of them is the step's stop. -/
theorem ninetyThreeBytesAreUnassigned : Obligations.NinetyThreeBytesAreUnassigned := by
  unfold Obligations.NinetyThreeBytesAreUnassigned
  refine ⟨rfl, handlerOf_eq_none_iff, fun s hpc hmem => ?_⟩
  have hstep : step s = .fault (.unassignedOpcode (s.byteAt s.pc) s.pc) :=
    step_of_error (fetchInstr_unassigned hpc ((handlerOf_eq_none_iff _).mpr hmem))
  exact ⟨hstep, singleStep_of_unassigned hstep⟩

/-- Settles O51: a distance in range is the displacement's value, and the sum of the branch's PC and the distance is the
label. -/
theorem assembledBranchReachesItsLabel : Obligations.AssembledBranchReachesItsLabel := by
  unfold Obligations.AssembledBranchReachesItsLabel
  refine fun s target a => ⟨fun d h => ?_, assembleRel_eq_none_iff⟩
  obtain ⟨hlo, hhi, rfl⟩ := assembleRel_eq_some_iff.mp h
  rw [branchTarget, State.setPC_pc, signExtend_ofInt hlo hhi, add_ofInt_distance]

end Sys2Proof.Proofs
end

section
/-! The engine (spec/40_engine.md): a step is the decoded instruction's meaning, run past the instruction and counted;
the resolver, the ALU, the shifter and the stack manager compute the numbers the rules write. -/

namespace Sys2Proof.Proofs

open Sys2Proof.Machine Sys2Proof.Laws

/-! ## Steps -/

/-- A step whose instruction was fetched completes (R90, R217). -/
theorem step_next_of_fetch {s u : State} {i : Instr} (h : fetchInstr s = .ok (i, u)) :
    ∃ v, exec i (u.setOutcome .running) = .next v ∧ step s = .next (v.setIC (v.ic + 1)) := by
  obtain ⟨v, hv⟩ := exec_next i (u.setOutcome .running)
  exact ⟨v, hv, by rw [step_of_fetch h, hv]; rfl⟩

theorem singleStep_eq_exhausted_iff {s t : State} :
    singleStep s = some (.addressSpaceExhausted, t) ↔
      step s = .fault .addressSpaceExhausted ∧ t = s.setPC Config.topAddr := by
  rcases step_cases s with ⟨u, h⟩ | h | h
  · cases ho : u.outcome <;> simp [singleStep, h, ho]
  · simp [singleStep, h, stopState, eq_comm]
  · simp [singleStep, h]

/-! ## Halt -/

theorem makes_madeAt (s : State) (g : Handler) : Makes g (madeAt s g) := by
  cases g <;> constructor

theorem handlerOf_haltOpcode : handlerOf 0x00#8 = some (.noOperand .brk) := rfl

/-- The byte 0x00, and no other, makes a BRK (R93, R203). -/
theorem madeAt_eq_brk_iff {s : State} {g : Handler} (hg : handlerOf (s.byteAt s.pc) = some g) :
    madeAt s g = .brk ↔ s.byteAt s.pc = 0x00#8 := by
  constructor
  · intro h
    rw [← opcode_of_makes (handlerOf_sound hg) (makes_madeAt s g), h, Instr.opcode]
  · intro h
    rw [h, handlerOf_haltOpcode] at hg
    cases hg
    rfl

theorem exec_outcome_eq_halt_iff {i : Instr} {s t : State} (hs : s.outcome = .running) (h : exec i s = .next t) :
    t.outcome = .halt ↔ i = .brk := by
  by_cases hi : i = .brk
  · subst hi
    cases h
    simp
  · simp [exec_outcome_unchanged h hi, hs, hi]

/-! ## The obligations: steps -/

/-- Settles O4: the fetch delivers what the decoder reads, and every meaning completes. -/
theorem stepRunsTheDecodedInstruction : Obligations.StepRunsTheDecodedInstruction := by
  unfold Obligations.StepRunsTheDecodedInstruction
  exact fun _ _ _ hd hw => step_next_of_fetch (fetchInstr_of_decode hd hw)

/-- Settles O9: the state left has PC at 0xFFFF, where the fetch of the opcode byte fails. -/
theorem exhaustionRecursAtOnce : Obligations.ExhaustionRecursAtOnce := by
  unfold Obligations.ExhaustionRecursAtOnce
  intro s t h
  obtain ⟨-, rfl⟩ := singleStep_eq_exhausted_iff.mp h
  exact singleStep_eq_exhausted_iff.mpr ⟨step_of_error (fetchInstr_top rfl), rfl⟩

/-- Settles O10: BRK alone writes the record, and 0x00 is its opcode byte. -/
theorem haltIsExactlyAFetchedZeroByte : Obligations.HaltIsExactlyAFetchedZeroByte := by
  unfold Obligations.HaltIsExactlyAFetchedZeroByte
  refine ⟨fun s t h => ?_, fun s hpc hzero => ?_⟩
  · obtain ⟨i, u, v, hfetch, hexec, rfl⟩ := step_next h
    obtain ⟨g, hg, rfl, -, -⟩ := fetchInstr_ok hfetch
    calc v.outcome = .halt
      _ ↔ madeAt s g = .brk := exec_outcome_eq_halt_iff (State.setOutcome_outcome _ _) hexec
      _ ↔ s.byteAt s.pc = 0x00#8 := madeAt_eq_brk_iff hg
  · have hg : handlerOf (s.byteAt s.pc) = some (.noOperand .brk) := by rw [hzero, handlerOf_haltOpcode]
    have hfetch : fetchInstr s = .ok (.brk, s.setPC (s.pc + 1#16)) :=
      (fetchInstr_handler hpc hg).trans (if_pos ((ne_top_iff s.pc).mp hpc))
    obtain ⟨v, hexec, hstep⟩ := step_next_of_fetch hfetch
    cases hexec
    rw [singleStep, hstep]
    rfl

/-! ## The resolver -/

@[simp] theorem zeroPage_toNat (b : Byte) : (zeroPage b).toNat = b.toNat := by
  have := b.isLt
  simp only [zeroPage, BitVec.toNat_setWidth]
  omega

theorem zeroPage_eq_ofNat {b : Byte} {n : Nat} (h : b.toNat = n % 256) : zeroPage b = BitVec.ofNat 16 (n % 256) := by
  rw [← h, ← zeroPage_toNat, BitVec.ofNat_toNat, BitVec.setWidth_eq]

/-- A zero-page pointer at `n`, both of whose bytes lie in the zero page (R95). -/
theorem readWordZP_toNat {p : Byte} {n : Nat} (h : p.toNat = n % 256) (s : State) :
    (readWordZP p s).toNat =
      (s.byteAt (BitVec.ofNat 16 ((n + 1) % 256))).toNat * 256 + (s.byteAt (BitVec.ofNat 16 (n % 256))).toNat := by
  have hhi : (p + 1#8).toNat = (n + 1) % 256 := by
    rw [BitVec.toNat_add, h]
    simp
  rw [readWordZP, joinBytes_toNat, zeroPage_eq_ofNat h, zeroPage_eq_ofNat hhi]

/-! ## The obligations: addresses -/

/-- Settles O27: the operand bytes and the index added at the mode's width. -/
theorem resolverComputesItsModes : Obligations.ResolverComputesItsModes := by
  unfold Obligations.ResolverComputesItsModes
  intro s z w
  simp [resolve, eaZp, eaZpx, eaZpy, eaAbs, eaAbsx, eaAbsy]

/-- Settles O28: each mode reads one zero-page pointer, and (Indirect),Y adds Y to the word there. -/
theorem pointerModesReadLittleEndian : Obligations.PointerModesReadLittleEndian := by
  unfold Obligations.PointerModesReadLittleEndian
  intro s z
  have hz : z.toNat = z.toNat % 256 := (Nat.mod_eq_of_lt z.isLt).symm
  refine ⟨readWordZP_toNat (BitVec.toNat_add z s.x) s, ?_, readWordZP_toNat hz s⟩
  rw [resolve, eaIndy, BitVec.toNat_add, readWordZP_toNat hz]
  simp

/-! ## The ALU and the shifter -/

/-- The signed value of a byte (R110). -/
theorem byte_toInt_eq (b : Byte) : b.toInt = if 128 ≤ b.toNat then (b.toNat : Int) - 256 else b.toNat := by
  simp [BitVec.toInt_eq_msb_cond, BitVec.msb_eq_decide]

theorem complement_toNat (m : Byte) : (m ^^^ 0xFF#8).toNat = 255 - m.toNat := by
  have : m ^^^ 0xFF#8 = ~~~m := BitVec.xor_allOnes
  rw [this, BitVec.toNat_not]

theorem complement_toInt (m : Byte) : (m ^^^ 0xFF#8).toInt = -1 - m.toInt := by
  have hlt := m.isLt
  rw [byte_toInt_eq, byte_toInt_eq, complement_toNat]
  split <;> split <;> omega

theorem add8_sum (a m : Byte) (cin : Bool) :
    (add8 a m cin).1.toNat + 256 * (add8 a m cin).2.1.toNat = a.toNat + m.toNat + cin.toNat := by
  have ha := a.isLt
  have hm := m.isLt
  have hc := cin.toNat_le
  by_cases hcarry : a.toNat + m.toNat + cin.toNat > 255 <;> simp [add8, hcarry] <;> omega

theorem outOfSignedRange_iff (n : Int) : outOfSignedRange n = true ↔ n < -128 ∨ 127 < n := by
  simp [outOfSignedRange]

/-- V: the operands have one sign and the result the other just when the signed sum does not fit (R110). -/
theorem add8_overflow (a m : Byte) (cin : Bool) :
    (add8 a m cin).2.2 = outOfSignedRange (a.toInt + m.toInt + cin.toNat) := by
  have ha := a.isLt
  have hm := m.isLt
  have hc := cin.toNat_le
  rw [Bool.eq_iff_iff, outOfSignedRange_iff, byte_toInt_eq, byte_toInt_eq]
  simp only [add8, BitVec.msb_eq_decide, Nat.reduceSub, Nat.reducePow, BitVec.toNat_ofNat]
  -- The four pairs of signs: with unlike signs the sum fits and V is 0.
  by_cases ha' : 128 ≤ a.toNat <;> by_cases hm' : 128 ≤ m.toNat <;> simp [ha', hm'] <;> omega

/-- SUB8 is the adder of the complement (R111): the exact results differ by 256, the weight of the carry. -/
theorem sub8_eq_add8 (a m : Byte) (cin : Bool) : sub8 a m cin = add8 a (m ^^^ 0xFF#8) cin := by
  have hm := m.isLt
  have hresult : BitVec.ofInt 8 (a.toNat - m.toNat - (1 - cin.toNat)) =
      BitVec.ofNat 8 (a.toNat + (255 - m.toNat) + cin.toNat) := by
    apply BitVec.eq_of_toNat_eq
    simp only [BitVec.toNat_ofInt, BitVec.toNat_ofNat]
    omega
  have hmsb : (m ^^^ 0xFF#8).msb = !m.msb := by
    rw [BitVec.msb_xor, show (0xFF#8).msb = true from rfl, Bool.xor_true]
  have hcarry : ((a.toNat : Int) - m.toNat - (1 - cin.toNat) ≥ 0) ↔
      a.toNat + (255 - m.toNat) + cin.toNat > 255 := by omega
  simp only [sub8, add8, complement_toNat, hresult, hmsb, hcarry]
  cases a.msb <;> cases m.msb <;> rfl

/-- The carry of SUB8 says that there was no borrow (R111). -/
theorem sub8_carry (a m : Byte) (cin : Bool) :
    (sub8 a m cin).2.1 = decide (m.toNat + (1 - cin.toNat) ≤ a.toNat) := by
  have hc := cin.toNat_le
  simp only [sub8, decide_eq_decide]
  omega

/-- V of SUB8 is V of the adder at the complement, whose signed value is `-1 - m`. -/
theorem sub8_overflow (a m : Byte) (cin : Bool) :
    (sub8 a m cin).2.2 = outOfSignedRange (a.toInt - m.toInt - (1 - (cin.toNat : Int))) := by
  have hsum : a.toInt + (-1 - m.toInt) + cin.toNat = a.toInt - m.toInt - (1 - (cin.toNat : Int)) := by omega
  rw [sub8_eq_add8, add8_overflow, complement_toInt, hsum]

theorem inc8_toNat (v : Byte) : (inc8 v).toNat = (v.toNat + 1) % 256 :=
  BitVec.toNat_add v 1#8

theorem dec8_toNat (v : Byte) : (dec8 v).toNat = (v.toNat + 255) % 256 := by
  rw [dec8, BitVec.toNat_sub, Nat.add_comm]
  rfl

/-- The six instructions of R113 have one row in the matrix of R38. -/
theorem flagsWritten_of_incDec : ∀ m ∈ [Mnemonic.inc, .dec, .inx, .iny, .dex, .dey], flagsWritten m = [.n, .z] := by
  decide

theorem asl8_toNat (v : Byte) : (asl8 v).1.toNat = v.toNat * 2 % 256 := by
  simp [asl8, Nat.shiftLeft_eq]

theorem lsr8_toNat (v : Byte) : (lsr8 v).1.toNat = v.toNat / 2 := by
  simp [lsr8, Nat.shiftRight_eq_div_pow]

/-- The carry goes into bit 0, which the shift left 0. -/
theorem rol8_toNat (v : Byte) (cin : Bool) : (rol8 v cin).1.toNat = v.toNat * 2 % 256 + cin.toNat := by
  have hcarry : (if cin then 0x01#8 else 0x00#8 : Byte).toNat = cin.toNat := by cases cin <;> rfl
  have hfits : cin.toNat < 2 ^ 1 := cin.toNat_lt
  have heven : v.toNat * 2 % 256 = (v.toNat % 128) <<< 1 := by
    rw [Nat.shiftLeft_eq]
    omega
  calc (rol8 v cin).1.toNat
    _ = (asl8 v).1.toNat ||| cin.toNat := by rw [rol8, asl8, BitVec.toNat_or, hcarry]
    _ = v.toNat * 2 % 256 + cin.toNat := by rw [asl8_toNat, heven, Nat.shiftLeft_add_eq_or_of_lt hfits]

/-- The carry goes into bit 7, which the shift left 0. -/
theorem ror8_toNat (v : Byte) (cin : Bool) : (ror8 v cin).1.toNat = v.toNat / 2 + 128 * cin.toNat := by
  have hcarry : (if cin then 0x80#8 else 0x00#8 : Byte).toNat = cin.toNat <<< 7 := by cases cin <;> rfl
  have hfits : v.toNat / 2 < 2 ^ 7 := by have := v.isLt; omega
  calc (ror8 v cin).1.toNat
    _ = cin.toNat <<< 7 ||| v.toNat / 2 := by
      rw [← lsr8_toNat, Nat.or_comm, ror8, lsr8, BitVec.toNat_or, hcarry]
    _ = v.toNat / 2 + 128 * cin.toNat := by
      rw [← Nat.shiftLeft_add_eq_or_of_lt hfits, Nat.shiftLeft_eq]
      omega

/-! ## The obligations: the ALU and the shifter -/

/-- Settles O29: the carry is what the sum loses in eight bits, and V compares the signs. -/
theorem adderIsExact : Obligations.AdderIsExact := by
  unfold Obligations.AdderIsExact
  exact fun a m cin => ⟨add8_sum a m cin, add8_overflow a m cin⟩

/-- Settles O30: the exact difference and the exact sum with the complement are 256 apart. -/
theorem subtractorIsAdderOfComplement : Obligations.SubtractorIsAdderOfComplement := by
  unfold Obligations.SubtractorIsAdderOfComplement
  exact fun a m cin => ⟨sub8_eq_add8 a m cin, sub8_carry a m cin, sub8_overflow a m cin⟩

/-- Settles O31: a difference modulo 256 is 0 only between equal bytes. -/
theorem compareUnit : Obligations.CompareUnit := by
  unfold Obligations.CompareUnit
  refine fun reg m => ⟨?difference, rfl, BitVec.sub_eq_iff_eq_add.trans ?equal⟩
  case difference =>
    have hm := m.isLt
    simp only [cmp8, BitVec.toNat_sub]
    omega
  case equal => rw [BitVec.zero_add]

/-- Settles O32: neither C nor V is in the row of R38 of the six instructions. -/
theorem incrementDecrementUnit : Obligations.IncrementDecrementUnit := by
  unfold Obligations.IncrementDecrementUnit
  refine ⟨fun v => ⟨inc8_toNat v, dec8_toNat v⟩, fun i s t hi h => ?_⟩
  have hrow := flagsWritten_of_incDec i.mnemonic hi
  exact ⟨exec_flag_unchanged h (by simp [hrow]), exec_flag_unchanged h (by simp [hrow])⟩

/-- Settles O33: a shift is a product or quotient by 2, and a rotate puts the carry into the bit it frees. -/
theorem shiftAndRotateUnit : Obligations.ShiftAndRotateUnit := by
  unfold Obligations.ShiftAndRotateUnit
  exact fun v cin => ⟨asl8_toNat v, byte_msb v, lsr8_toNat v, by simp [lsr8], rfl, rol8_toNat v cin, byte_msb v,
    ror8_toNat v cin, rfl⟩

/-! ## The stack -/

/-- The slot at an offset, as a number (R26). -/
theorem stackAddr_eq_ofNat (sp : Byte) : stackAddr sp = BitVec.ofNat 16 (0x0100 + sp.toNat) := by
  rw [← stackAddr_toNat, BitVec.ofNat_toNat, BitVec.setWidth_eq]

theorem sub_ofNat_succ (sp : Byte) (n : Nat) : sp - BitVec.ofNat 8 (n + 1) = sp - 1#8 - BitVec.ofNat 8 n := by
  rw [Nat.add_comm, BitVec.ofNat_add, ← BitVec.sub_sub]

/-- Pushes change SP and memory alone. -/
theorem pushAll_eq (bs : List Byte) (s : State) :
    pushAll bs s = (s.setMem (pushAll bs s).mem).setReg .sp (s.sp - BitVec.ofNat 8 bs.length) := by
  induction bs generalizing s with
  | nil =>
    rw [List.length_nil, BitVec.sub_zero]
    rfl
  | cons b rest ih =>
    refine (ih (push b s)).trans ?_
    rw [push_sp, ← sub_ofNat_succ]
    rfl

/-- Pushes write the slots from SP downward and no other address. -/
theorem pushAll_byteAt_of_ne {bs : List Byte} {s : State} {a : Addr}
    (h : ∀ k < bs.length, a ≠ stackAddr (s.sp - BitVec.ofNat 8 k)) : (pushAll bs s).byteAt a = s.byteAt a := by
  induction bs generalizing s with
  | nil => rfl
  | cons b rest ih =>
    have hfirst : a ≠ stackAddr s.sp := by simpa using h 0 (by simp)
    have hrest : ∀ k < rest.length, a ≠ stackAddr ((push b s).sp - BitVec.ofNat 8 k) := fun k hk => by
      rw [push_sp, ← sub_ofNat_succ]
      exact h (k + 1) (Nat.succ_lt_succ hk)
    rw [pushAll, ih hrest, push_byteAt, if_neg hfirst]

/-- Pulls change SP alone. -/
theorem pullMany_snd (n : Nat) (s : State) : (pullMany n s).2 = s.setReg .sp (s.sp + BitVec.ofNat 8 n) := by
  induction n generalizing s with
  | zero =>
    rw [BitVec.add_zero]
    rfl
  | succ n ih =>
    refine (ih (pull s).2).trans ?_
    rw [pull_snd, State.setReg_sp_sp, BitVec.add_assoc, ← BitVec.ofNat_add, Nat.add_comm]
    rfl

/-- The last of `n + 1` pulls. -/
theorem pullMany_succ_fst (n : Nat) (s : State) :
    (pullMany (n + 1) s).1 = (pullMany n s).1 ++ [(pull (pullMany n s).2).1] := by
  induction n generalizing s with
  | zero => rfl
  | succ n ih => exact congrArg ((pull s).1 :: ·) (ih (pull s).2)

/-- As many pulls as pushes take SP back. -/
theorem pullMany_pushAll_snd (bs : List Byte) (s : State) :
    (pullMany bs.length (pushAll bs s)).2 = s.setMem (pushAll bs s).mem := by
  have hsp : (pushAll bs s).sp + BitVec.ofNat 8 bs.length = s.sp := by
    rw [pushAll_eq, State.setReg_sp_sp, BitVec.sub_add_cancel]
  rw [pullMany_snd, hsp, pushAll_eq]
  rfl

/-- The next 255 slots below a slot are other slots (R26: the stack page has 256). -/
theorem stackAddr_ne_below {sp : Byte} {k : Nat} (h : k < 255) :
    stackAddr sp ≠ stackAddr (sp - 1#8 - BitVec.ofNat 8 k) := by
  intro heq
  have := stackAddr_inj heq
  bv_omega

/-- The byte pushed first is pulled last: the at most 255 pushes after it leave its slot alone. -/
theorem pullMany_pushAll_fst {bs : List Byte} (s : State) (h : bs.length ≤ 256) :
    (pullMany bs.length (pushAll bs s)).1 = bs.reverse := by
  induction bs generalizing s with
  | nil => rfl
  | cons b rest ih =>
    have hlen : rest.length < 256 := h
    have hslot : (pushAll rest (push b s)).byteAt (stackAddr s.sp) = b := by
      rw [pushAll_byteAt_of_ne fun k hk => ?_, push_byteAt, if_pos rfl]
      rw [push_sp]
      exact stackAddr_ne_below (by omega)
    have hlast : (pull (pullMany rest.length (pushAll rest (push b s))).2).1 = b := by
      rw [pullMany_pushAll_snd, pull_fst, State.setMem_sp, push_sp, BitVec.sub_add_cancel]
      exact hslot
    rw [pushAll, List.length_cons, pullMany_succ_fst, ih _ (by omega), hlast, List.reverse_cons]

/-! ## The obligations: the stack -/

/-- Settles O35: one write at the slot, then SP decremented as DEC8 does. -/
theorem pushStoresThenDecrements : Obligations.PushStoresThenDecrements := by
  unfold Obligations.PushStoresThenDecrements
  intro b s
  exact ⟨stackAddr_toNat s.sp, by rw [push_byteAt, if_pos rfl], fun a ha => by rw [push_byteAt, if_neg ha],
    dec8_toNat s.sp, fun r hr => by rw [push_reg, if_neg hr], push_p b s, push_pc b s, push_ic b s⟩

/-- Settles O36: SP incremented as INC8 does, then one read at the new slot. -/
theorem pullIncrementsThenLoads : Obligations.PullIncrementsThenLoads := by
  unfold Obligations.PullIncrementsThenLoads
  intro s
  have hsp : (s.sp + 1#8).toNat = (s.sp.toNat + 1) % 256 := inc8_toNat s.sp
  refine ⟨hsp, ?byte, fun a => ?memory, fun r hr => ?registers, rfl, rfl, rfl⟩
  case byte => rw [pull_fst, stackAddr_eq_ofNat, hsp]
  case memory => rw [pull_snd, State.setReg_byteAt]
  case registers => rw [pull_snd, State.setReg_reg, if_neg hr]

/-- Settles O37: the pulls leave memory as the pushes did, which wrote slots of the stack page alone. -/
theorem pulledBytesArePushedBytesReversed : Obligations.PulledBytesArePushedBytesReversed := by
  unfold Obligations.PulledBytesArePushedBytesReversed
  intro bs s h
  rw [pullMany_pushAll_snd]
  refine ⟨pullMany_pushAll_fst s h, State.setMem_reg s _, rfl, rfl, fun a ha => ?outside⟩
  case outside =>
    refine pushAll_byteAt_of_ne (bs := bs) (s := s) fun k _ hslot => ?_
    have := (s.sp - BitVec.ofNat 8 k).isLt
    rw [hslot, stackAddr_toNat] at ha
    omega

end Sys2Proof.Proofs
end

section
/-! Load and store (spec/41_load_store.md R130 to R136): every form decodes from its bytes and does what its operation's effect
lists (`runs_effect`); for a load that effect is `loads`, for a store it is `stores`. -/

namespace Sys2Proof.Proofs

open Sys2Proof.Machine Sys2Proof.Laws

/-- From its encoding, an instruction runs as its operation's effect says. -/
theorem runs_effect (i : Instr) (s : State) : Runs (encode i) i ((opOf i).effect s) s := by
  have hdecode : decode (encode i) = .ok (i, []) := by simpa using decode_encode i []
  exact ⟨hdecode, exec_does i s⟩

/-! ## The obligations: load and store -/

/-- Settles O38: each form is a load of A from its operand. -/
theorem ldaLoadsTheAccumulator : Obligations.LdaLoadsTheAccumulator := by
  unfold Obligations.LdaLoadsTheAccumulator
  intro s v z w
  exact ⟨runs_effect (.ldaImm v) s, runs_effect (.ldaZp z) s, runs_effect (.ldaZpx z) s, runs_effect (.ldaAbs w) s,
    runs_effect (.ldaAbsx w) s, runs_effect (.ldaAbsy w) s, runs_effect (.ldaIndx z) s, runs_effect (.ldaIndy z) s,
    runs_effect (.ldaZpi z) s⟩

/-- Settles O39: each form is a load of X or of Y from its operand. -/
theorem ldxAndLdyLoadTheIndexes : Obligations.LdxAndLdyLoadTheIndexes := by
  unfold Obligations.LdxAndLdyLoadTheIndexes
  intro s v z w
  exact ⟨runs_effect (.ldxImm v) s, runs_effect (.ldxZp z) s, runs_effect (.ldxZpy z) s, runs_effect (.ldxAbs w) s,
    runs_effect (.ldxAbsy w) s, runs_effect (.ldyImm v) s, runs_effect (.ldyZp z) s, runs_effect (.ldyZpx z) s,
    runs_effect (.ldyAbs w) s, runs_effect (.ldyAbsx w) s⟩

/-- Settles O40: each form is a store of A at its mode's address. -/
theorem staStoresTheAccumulator : Obligations.StaStoresTheAccumulator := by
  unfold Obligations.StaStoresTheAccumulator
  intro s z w
  exact ⟨runs_effect (.staZp z) s, runs_effect (.staZpx z) s, runs_effect (.staAbs w) s, runs_effect (.staAbsx w) s,
    runs_effect (.staAbsy w) s, runs_effect (.staIndx z) s, runs_effect (.staIndy z) s, runs_effect (.staZpi z) s⟩

/-- Settles O41: each form is a store of X, of Y or of zero at its mode's address. -/
theorem stxStyStzStore : Obligations.StxStyStzStore := by
  unfold Obligations.StxStyStzStore
  intro s z w
  exact ⟨runs_effect (.stxZp z) s, runs_effect (.stxZpy z) s, runs_effect (.stxAbs w) s, runs_effect (.styZp z) s,
    runs_effect (.styZpx z) s, runs_effect (.styAbs w) s, runs_effect (.stzZp z) s, runs_effect (.stzZpx z) s,
    runs_effect (.stzAbs w) s, runs_effect (.stzAbsx w) s⟩

end Sys2Proof.Proofs
end

section
/-! Arithmetic, increment and decrement (spec/42_arith_incdec.md R140 to R147): ADC and SBC do what the exact sum and the exact
difference say (`addToA_does`, `subFromA_does`), which the statements spell out as `adds` and `subtracts`; INC8 and DEC8 are
`+ 1` and `+ 255` modulo 256, so that every form of the six others runs as its operation's effect says. -/

namespace Sys2Proof.Proofs

open Sys2Proof.Machine Sys2Proof.Laws

/-- An instruction decodes from its encoding, so that it runs as whatever its meaning does. -/
theorem runs_of_does (i : Instr) {e : Effect} {s : State} (h : Does e s (exec i s)) : Runs (encode i) i e s :=
  ⟨(runs_effect i s).1, h⟩

/-! ## What an addition and a subtraction do -/

/-- `writeSum` with its flags in the order of `adds` and `subtracts`. -/
theorem writeSum_does_carryFirst (alu : Byte × Bool × Bool) (s : State) :
    Does { regs := [(.a, alu.1)], flags := (.c, alu.2.1) :: (.v, alu.2.2) :: nz alu.1 } s (writeSum alu s) :=
  does_of_flags_perm (writeSum_does alu s) (List.perm_append_comm (l₁ := [_, _]) (l₂ := nz alu.1))

/-- ADC of `m` (R140): the result and the carry are those of the 9-bit sum as ADD8 computes it, V is `add8_overflow`. -/
theorem addToA_does (m : Byte) (s : State) : Does (adds s m) s (addToA m s) := by
  rw [adds, ← add8_overflow]
  exact writeSum_does_carryFirst (add8 s.a m (s.flag .c)) s

/-- The result of SUB8 with the borrow as a number, 256 more than the exact difference so that it is not negative. -/
theorem sub8_result (a m : Byte) (cin : Bool) :
    (sub8 a m cin).1 = mod256 (a.toNat + 256 - m.toNat - (1 - cin.toNat)) := by
  have hm := m.isLt
  have hc := cin.toNat_le
  apply BitVec.eq_of_toNat_eq
  simp only [sub8, mod256, BitVec.toNat_ofInt, BitVec.toNat_ofNat]
  omega

/-- SBC of `m` (R141): the result, the carry and V of SUB8, each as the difference with the borrow gives it. -/
theorem subFromA_does (m : Byte) (s : State) : Does (subtracts s m) s (subFromA m s) := by
  have hborrow : ((1 - (s.flag .c).toNat : Nat) : Int) = 1 - ((s.flag .c).toNat : Int) :=
    Int.ofNat_sub (s.flag .c).toNat_le
  rw [subtracts, hborrow, ← sub8_result, ← sub8_carry, ← sub8_overflow]
  exact writeSum_does_carryFirst (sub8 s.a m (s.flag .c)) s

/-! ## INC8 and DEC8 modulo 256 -/

theorem mod256_add_one (v : Byte) : mod256 (v.toNat + 1) = inc8 v :=
  BitVec.eq_of_toNat_eq (inc8_toNat v).symm

theorem mod256_add_255 (v : Byte) : mod256 (v.toNat + 255) = dec8 v :=
  BitVec.eq_of_toNat_eq (dec8_toNat v).symm

/-! ## The obligations: arithmetic, increment and decrement -/

/-- Settles O42: each form adds its operand to A. -/
theorem adcAddsWithCarry : Obligations.AdcAddsWithCarry := by
  unfold Obligations.AdcAddsWithCarry
  intro s v z w
  exact ⟨runs_of_does (.adcImm v) (addToA_does _ s), runs_of_does (.adcZp z) (addToA_does _ s),
    runs_of_does (.adcZpx z) (addToA_does _ s), runs_of_does (.adcAbs w) (addToA_does _ s),
    runs_of_does (.adcAbsx w) (addToA_does _ s), runs_of_does (.adcAbsy w) (addToA_does _ s),
    runs_of_does (.adcIndx z) (addToA_does _ s), runs_of_does (.adcIndy z) (addToA_does _ s),
    runs_of_does (.adcZpi z) (addToA_does _ s)⟩

/-- Settles O43: each form subtracts its operand from A. -/
theorem sbcSubtractsWithBorrow : Obligations.SbcSubtractsWithBorrow := by
  unfold Obligations.SbcSubtractsWithBorrow
  intro s v z w
  exact ⟨runs_of_does (.sbcImm v) (subFromA_does _ s), runs_of_does (.sbcZp z) (subFromA_does _ s),
    runs_of_does (.sbcZpx z) (subFromA_does _ s), runs_of_does (.sbcAbs w) (subFromA_does _ s),
    runs_of_does (.sbcAbsx w) (subFromA_does _ s), runs_of_does (.sbcAbsy w) (subFromA_does _ s),
    runs_of_does (.sbcIndx z) (subFromA_does _ s), runs_of_does (.sbcIndy z) (subFromA_does _ s),
    runs_of_does (.sbcZpi z) (subFromA_does _ s)⟩

/-- Settles O44: each form modifies the byte at its mode's address, or X or Y, by INC8 or DEC8. -/
theorem incrementsAndDecrements : Obligations.IncrementsAndDecrements := by
  unfold Obligations.IncrementsAndDecrements
  intro s z w
  simp only [mod256_add_one, mod256_add_255]
  exact ⟨runs_effect (.incZp z) s, runs_effect (.incZpx z) s, runs_effect (.incAbs w) s, runs_effect (.incAbsx w) s,
    runs_effect (.decZp z) s, runs_effect (.decZpx z) s, runs_effect (.decAbs w) s, runs_effect (.decAbsx w) s,
    runs_effect .inx s, runs_effect .iny s, runs_effect .dex s, runs_effect .dey s⟩

end Sys2Proof.Proofs
end

section
/-! Logical, shift and rotate instructions (spec/43_logic_shift.md R150 to R156): the logical forms run as their operation's
effect says; a shift or rotate writes its result and its carry (`shiftA_does_of_eq`, `shiftByte_does_of_eq`), which the
shifter's equations spell out as numbers. A byte and the carry form a ring of nine bits, which ROL8 and ROR8 turn by one
place (`ringBit_rolPair`, `ringBit_rorPair`). -/

namespace Sys2Proof.Proofs

open Sys2Proof.Machine Sys2Proof.Laws

/-! ## The shifter modulo 256 -/

theorem asl8_eq (v : Byte) : asl8 v = (mod256 (v.toNat * 2), v.getLsbD 7) :=
  Prod.ext (BitVec.eq_of_toNat_eq (asl8_toNat v)) (byte_msb v)

theorem lsr8_eq (v : Byte) : lsr8 v = (mod256 (v.toNat / 2), v.getLsbD 0) := by
  refine Prod.ext (BitVec.eq_of_toNat_eq ?_) rfl
  have hv := v.isLt
  rw [lsr8_toNat, mod256, BitVec.toNat_ofNat]
  omega

theorem rol8_eq (v : Byte) (cin : Bool) : rol8 v cin = (mod256 (v.toNat * 2 + cin.toNat), v.getLsbD 7) := by
  refine Prod.ext (BitVec.eq_of_toNat_eq ?_) (byte_msb v)
  have hc := cin.toNat_le
  rw [rol8_toNat, mod256, BitVec.toNat_ofNat]
  omega

theorem ror8_eq (v : Byte) (cin : Bool) : ror8 v cin = (mod256 (v.toNat / 2 + 128 * cin.toNat), v.getLsbD 0) := by
  refine Prod.ext (BitVec.eq_of_toNat_eq ?_) rfl
  have hv := v.isLt
  have hc := cin.toNat_le
  rw [ror8_toNat, mod256, BitVec.toNat_ofNat]
  omega

/-! ## What a shift does -/

section
variable (f : Byte → Byte × Bool) {s : State} {r : Byte} {cout : Bool}

theorem shiftA_does_of_eq (hf : f s.a = (r, cout)) : Does (loadsWithCarry .a r cout) s (shiftA f s) := by
  have h := shiftA_does f s
  rw [hf] at h
  exact does_of_flags_perm h (List.perm_append_comm (l₁ := [_]) (l₂ := nz r))

theorem shiftByte_does_of_eq {mode : AddrMode} (hf : f (s.byteAt (resolve mode s)) = (r, cout)) :
    Does (modifiesWithCarry (resolve mode s) r cout) s (shiftByte f mode s) := by
  have h := shiftByte_does f mode s
  rw [hf] at h
  exact does_of_flags_perm h (List.perm_append_comm (l₁ := [_]) (l₂ := nz r))

end

/-! ## The ring of nine bits -/

/-- ROL8 on a byte and the carry before it, giving the byte and the carry after it. -/
def rolPair (x : Byte × Bool) : Byte × Bool := rol8 x.1 x.2

/-- ROR8 likewise. -/
def rorPair (x : Byte × Bool) : Byte × Bool := ror8 x.1 x.2

/-- The bits of a byte and the carry as one ring: places 0 to 7 are the byte's, place 8 is the carry, and place `i + 9` is
place `i` again. -/
def ringBit (x : Byte × Bool) (i : Nat) : Bool := if i % 9 = 8 then x.2 else x.1.getLsbD (i % 9)

theorem rol8_getLsbD_zero (v : Byte) (cin : Bool) : (rol8 v cin).1.getLsbD 0 = cin := by
  cases cin <;> simp [rol8]

theorem rol8_getLsbD_succ (v : Byte) (cin : Bool) {i : Nat} (hi : i < 7) :
    (rol8 v cin).1.getLsbD (i + 1) = v.getLsbD i := by
  cases cin <;> simp [rol8] <;> omega

theorem ror8_getLsbD_seven (v : Byte) (cin : Bool) : (ror8 v cin).1.getLsbD 7 = cin := by
  cases cin <;> simp [ror8]

theorem ror8_getLsbD_of_lt (v : Byte) (cin : Bool) {i : Nat} (hi : i < 7) :
    (ror8 v cin).1.getLsbD i = v.getLsbD (i + 1) := by
  have h : ∀ n < 7, (0x80#8).getLsbD n = false := by decide
  cases cin <;> simp [ror8, h i hi, Nat.add_comm 1 i]

theorem ringBit_add_nine (x : Byte × Bool) (i : Nat) : ringBit x (i + 9) = ringBit x i := by
  simp [ringBit]

theorem ringBit_ext {x y : Byte × Bool} (h : ∀ i, ringBit x i = ringBit y i) : x = y := by
  refine Prod.ext (BitVec.eq_of_getLsbD_eq fun i hi => ?_) (h 8)
  have hmod : i % 9 = i := by omega
  have hne : i ≠ 8 := by omega
  simpa [ringBit, hmod, hne] using h i

/-- ROL8 brings the carry to place 0 and takes the byte's top bit to place 8. -/
theorem ringBit_rolPair (x : Byte × Bool) (i : Nat) : ringBit (rolPair x) (i + 1) = ringBit x i := by
  obtain ⟨v, c⟩ := x
  have hplace : i % 9 < 7 ∨ i % 9 = 7 ∨ i % 9 = 8 := by omega
  obtain hlow | htop | hcarry := hplace
  · have hnext : (i + 1) % 9 = i % 9 + 1 := by omega
    have hne : i % 9 ≠ 8 := by omega
    simp [ringBit, rolPair, Nat.ne_of_lt hlow, hne, hnext, rol8_getLsbD_succ _ _ hlow]
  · have hnext : (i + 1) % 9 = 8 := by omega
    simp [ringBit, rolPair, rol8_eq, htop, hnext]
  · have hnext : (i + 1) % 9 = 0 := by omega
    simpa [ringBit, rolPair, hcarry, hnext] using rol8_getLsbD_zero v c

/-- ROR8 brings the carry to place 7 and takes the byte's bottom bit to place 8. -/
theorem ringBit_rorPair (x : Byte × Bool) (i : Nat) : ringBit (rorPair x) i = ringBit x (i + 1) := by
  obtain ⟨v, c⟩ := x
  have hplace : i % 9 < 7 ∨ i % 9 = 7 ∨ i % 9 = 8 := by omega
  obtain hlow | htop | hcarry := hplace
  · have hnext : (i + 1) % 9 = i % 9 + 1 := by omega
    have hne : i % 9 ≠ 8 := by omega
    simp [ringBit, rorPair, Nat.ne_of_lt hlow, hne, hnext, ror8_getLsbD_of_lt _ _ hlow]
  · have hnext : (i + 1) % 9 = 8 := by omega
    simpa [ringBit, rorPair, htop, hnext] using ror8_getLsbD_seven v c
  · have hnext : (i + 1) % 9 = 0 := by omega
    simp [ringBit, rorPair, ror8_eq, hcarry, hnext]

theorem ringBit_repeat_rolPair (n : Nat) (x : Byte × Bool) (i : Nat) :
    ringBit (Nat.repeat rolPair n x) (i + n) = ringBit x i := by
  induction n with
  | zero => rfl
  | succ n ih => exact (ringBit_rolPair _ (i + n)).trans ih

theorem ringBit_repeat_rorPair (n : Nat) (x : Byte × Bool) (i : Nat) :
    ringBit (Nat.repeat rorPair n x) i = ringBit x (i + n) := by
  induction n generalizing i with
  | zero => rfl
  | succ n ih => rw [Nat.repeat, ringBit_rorPair, ih, Nat.add_assoc, Nat.add_comm 1 n]

/-- Nine turns bring the ring back to where it was. -/
theorem repeat_nine_rolPair (x : Byte × Bool) : Nat.repeat rolPair 9 x = x :=
  ringBit_ext fun i => by rw [← ringBit_add_nine, ringBit_repeat_rolPair]

theorem repeat_nine_rorPair (x : Byte × Bool) : Nat.repeat rorPair 9 x = x :=
  ringBit_ext fun i => by rw [ringBit_repeat_rorPair, ringBit_add_nine]

theorem rorPair_rolPair (x : Byte × Bool) : rorPair (rolPair x) = x :=
  ringBit_ext fun i => by rw [ringBit_rorPair, ringBit_rolPair]

/-! ## The obligations: logic, shift and rotate -/

/-- Settles O34: nine turns of the ring of nine bits, in either direction, change nothing, and the directions are inverse. -/
theorem nineRotatesRestore : Obligations.NineRotatesRestore := by
  unfold Obligations.NineRotatesRestore
  exact fun v c => ⟨repeat_nine_rolPair (v, c), repeat_nine_rorPair (v, c), rorPair_rolPair (v, c)⟩

/-- Settles O45: each form combines its operand into A. -/
theorem logicCombinesIntoTheAccumulator : Obligations.LogicCombinesIntoTheAccumulator := by
  unfold Obligations.LogicCombinesIntoTheAccumulator
  intro s v z w
  exact ⟨runs_effect (.andImm v) s, runs_effect (.andZp z) s, runs_effect (.andZpx z) s, runs_effect (.andAbs w) s,
    runs_effect (.andAbsx w) s, runs_effect (.andAbsy w) s, runs_effect (.andIndx z) s, runs_effect (.andIndy z) s,
    runs_effect (.andZpi z) s,
    runs_effect (.oraImm v) s, runs_effect (.oraZp z) s, runs_effect (.oraZpx z) s, runs_effect (.oraAbs w) s,
    runs_effect (.oraAbsx w) s, runs_effect (.oraAbsy w) s, runs_effect (.oraIndx z) s, runs_effect (.oraIndy z) s,
    runs_effect (.oraZpi z) s,
    runs_effect (.eorImm v) s, runs_effect (.eorZp z) s, runs_effect (.eorZpx z) s, runs_effect (.eorAbs w) s,
    runs_effect (.eorAbsx w) s, runs_effect (.eorAbsy w) s, runs_effect (.eorIndx z) s, runs_effect (.eorIndy z) s,
    runs_effect (.eorZpi z) s⟩

/-- Settles O46: each form shifts A or the byte at its mode's address, by ASL8 or LSR8. -/
theorem aslAndLsrShift : Obligations.AslAndLsrShift := by
  unfold Obligations.AslAndLsrShift
  intro s z w
  exact ⟨runs_of_does .aslAcc (shiftA_does_of_eq asl8 (asl8_eq _)),
    runs_of_does (.aslZp z) (shiftByte_does_of_eq asl8 (asl8_eq _)),
    runs_of_does (.aslZpx z) (shiftByte_does_of_eq asl8 (asl8_eq _)),
    runs_of_does (.aslAbs w) (shiftByte_does_of_eq asl8 (asl8_eq _)),
    runs_of_does (.aslAbsx w) (shiftByte_does_of_eq asl8 (asl8_eq _)),
    runs_of_does .lsrAcc (shiftA_does_of_eq lsr8 (lsr8_eq _)),
    runs_of_does (.lsrZp z) (shiftByte_does_of_eq lsr8 (lsr8_eq _)),
    runs_of_does (.lsrZpx z) (shiftByte_does_of_eq lsr8 (lsr8_eq _)),
    runs_of_does (.lsrAbs w) (shiftByte_does_of_eq lsr8 (lsr8_eq _)),
    runs_of_does (.lsrAbsx w) (shiftByte_does_of_eq lsr8 (lsr8_eq _))⟩

/-- Settles O47: each form rotates A or the byte at its mode's address, by ROL8 or ROR8 with the carry of the state
before. -/
theorem rolAndRorRotate : Obligations.RolAndRorRotate := by
  unfold Obligations.RolAndRorRotate
  intro s z w
  exact ⟨runs_of_does .rolAcc (shiftA_does_of_eq (rolWith s) (rol8_eq _ _)),
    runs_of_does (.rolZp z) (shiftByte_does_of_eq (rolWith s) (rol8_eq _ _)),
    runs_of_does (.rolZpx z) (shiftByte_does_of_eq (rolWith s) (rol8_eq _ _)),
    runs_of_does (.rolAbs w) (shiftByte_does_of_eq (rolWith s) (rol8_eq _ _)),
    runs_of_does (.rolAbsx w) (shiftByte_does_of_eq (rolWith s) (rol8_eq _ _)),
    runs_of_does .rorAcc (shiftA_does_of_eq (rorWith s) (ror8_eq _ _)),
    runs_of_does (.rorZp z) (shiftByte_does_of_eq (rorWith s) (ror8_eq _ _)),
    runs_of_does (.rorZpx z) (shiftByte_does_of_eq (rorWith s) (ror8_eq _ _)),
    runs_of_does (.rorAbs w) (shiftByte_does_of_eq (rorWith s) (ror8_eq _ _)),
    runs_of_does (.rorAbsx w) (shiftByte_does_of_eq (rorWith s) (ror8_eq _ _))⟩

end Sys2Proof.Proofs
end

section
/-! Compare and branch (spec/44_compare_branch.md R160 to R172): a compare does what the unsigned order and the difference
modulo 256 say (`compareReg_does_compares`), a branch jumps by its displacement as a number (`branchIf_does_jumpsBy`); from
its opcode's address a branch step writes PC, IC and the outcome record alone (`step_of_branch`). -/

namespace Sys2Proof.Proofs

open Sys2Proof.Machine Sys2Proof.Laws

/-! ## What a compare does -/

/-- The difference of CMP8, 256 more than the exact one so that it is not negative. -/
theorem cmp8_fst (reg m : Byte) : (cmp8 reg m).1 = mod256 (reg.toNat + (256 - m.toNat)) := by
  apply BitVec.eq_of_toNat_eq
  rw [mod256, BitVec.toNat_ofNat, Nat.add_comm]
  exact BitVec.toNat_sub reg m

/-- CMP, CPX or CPY of `m` (R160 to R162): C is CMP8's unsigned order, N and Z follow its difference. -/
theorem compareReg_does_compares (r : Reg) (m : Byte) (s : State) :
    Does (compares (s.reg r) m) s (compareReg r m s) := by
  rw [compares, ← cmp8_fst]
  exact does_of_flags_perm (compareReg_does r m s) (List.perm_append_comm (l₁ := [_]) (l₂ := nz _))

/-! ## What a branch does -/

/-- The sign-extended displacement adds to PC as the signed number it is (R163). -/
theorem branchTarget_eq_ofInt (d : Byte) (s : State) :
    branchTarget d s = BitVec.ofInt 16 (s.pc.toNat + d.toInt) := by
  rw [branchTarget, BitVec.signExtend, BitVec.ofInt_add, BitVec.ofInt_natCast, BitVec.ofNat_toNat, BitVec.setWidth_eq]

theorem branchIf_does_jumpsBy (cond : Bool) (d : Byte) (s : State) : Does (jumpsBy s cond d) s (branchIf cond d s) := by
  rw [jumpsBy, ← branchTarget_eq_ofInt]
  exact branchIf_does cond d s

/-- Where a branch whose opcode is at `a` goes, PC being `a + 2` when it runs: `a + 2` is no wrapped sum. -/
theorem branchTarget_setPC_add_two {s : State} (hfits : s.pc.toNat + 2 ≤ 65535) (d : Byte) :
    branchTarget d (s.setPC (s.pc + 2#16)) = BitVec.ofInt 16 (s.pc.toNat + 2 + d.toInt) := by
  have hpc : (s.pc + 2#16).toNat = s.pc.toNat + 2 := by
    rw [BitVec.toNat_add, BitVec.toNat_ofNat]
    omega
  rw [branchTarget_eq_ofInt, State.setPC_pc, hpc, Int.natCast_add, Int.cast_ofNat_Int]

/-- A step at a two-byte instruction that means a branch: PC goes to the target or past the instruction, and apart from PC
only the step's own record and count are written. -/
theorem step_of_branch {s : State} {i : Instr} {rest : List Byte} {taken : Bool} {d : Byte}
    (hfits : s.pc.toNat + 2 ≤ 65535) (hdecode : decode (bytesAtPC s) = .ok (i, rest)) (hlen : i.length = 2)
    (hexec : ∀ pc e, exec i ((s.setPC pc).setOutcome e) = branchIf taken d ((s.setPC pc).setOutcome e)) :
    step s = .next (((s.setPC (if taken then BitVec.ofInt 16 (s.pc.toNat + 2 + d.toInt) else s.pc + 2#16)).setOutcome
      .running).setIC (s.ic + 1)) := by
  have hfetch : fetchInstr s = .ok (i, s.setPC (s.pc + 2#16)) := by
    have hw : i.wellFormedAt s.pc = true := by simpa [Instr.wellFormedAt, Config.topAddr, hlen] using hfits
    simpa [hlen] using fetchInstr_of_decode hdecode hw
  rw [step_of_fetch hfetch, hexec, ← branchTarget_setPC_add_two hfits]
  cases taken <;> rfl

/-! ## The obligations: compare and branch -/

/-- Settles O48: each form compares A, X or Y with its operand. -/
theorem comparesSetFlagsOnly : Obligations.ComparesSetFlagsOnly := by
  unfold Obligations.ComparesSetFlagsOnly
  intro s v z w
  exact ⟨runs_of_does (.cmpImm v) (compareReg_does_compares .a _ s),
    runs_of_does (.cmpZp z) (compareReg_does_compares .a _ s),
    runs_of_does (.cmpZpx z) (compareReg_does_compares .a _ s),
    runs_of_does (.cmpAbs w) (compareReg_does_compares .a _ s),
    runs_of_does (.cmpAbsx w) (compareReg_does_compares .a _ s),
    runs_of_does (.cmpAbsy w) (compareReg_does_compares .a _ s),
    runs_of_does (.cmpIndx z) (compareReg_does_compares .a _ s),
    runs_of_does (.cmpIndy z) (compareReg_does_compares .a _ s),
    runs_of_does (.cmpZpi z) (compareReg_does_compares .a _ s),
    runs_of_does (.cpxImm v) (compareReg_does_compares .x _ s),
    runs_of_does (.cpxZp z) (compareReg_does_compares .x _ s),
    runs_of_does (.cpxAbs w) (compareReg_does_compares .x _ s),
    runs_of_does (.cpyImm v) (compareReg_does_compares .y _ s),
    runs_of_does (.cpyZp z) (compareReg_does_compares .y _ s),
    runs_of_does (.cpyAbs w) (compareReg_does_compares .y _ s)⟩

/-- Settles O49: each branch is `branchIf` of its condition. -/
theorem branchesTestTheirCondition : Obligations.BranchesTestTheirCondition := by
  unfold Obligations.BranchesTestTheirCondition
  intro s d
  exact ⟨runs_of_does (.bcc d) (branchIf_does_jumpsBy _ d s), runs_of_does (.bcs d) (branchIf_does_jumpsBy _ d s),
    runs_of_does (.beq d) (branchIf_does_jumpsBy _ d s), runs_of_does (.bne d) (branchIf_does_jumpsBy _ d s),
    runs_of_does (.bmi d) (branchIf_does_jumpsBy _ d s), runs_of_does (.bpl d) (branchIf_does_jumpsBy _ d s),
    runs_of_does (.bvc d) (branchIf_does_jumpsBy _ d s), runs_of_does (.bvs d) (branchIf_does_jumpsBy _ d s),
    runs_of_does (.bra d) (branchIf_does_jumpsBy true d s)⟩

/-- Settles O50: the condition reads a flag, which neither the fetch nor the record has touched when the branch runs. -/
theorem branchStepFromItsOpcodeAddress : Obligations.BranchStepFromItsOpcodeAddress := by
  unfold Obligations.BranchStepFromItsOpcodeAddress
  rintro s i taken hfits d ⟨rest, hdecode⟩ hi
  obtain ⟨hlen, hexec⟩ : i.length = 2 ∧
      ∀ pc e, exec i ((s.setPC pc).setOutcome e) = branchIf taken d ((s.setPC pc).setOutcome e) := by
    obtain ⟨rfl, rfl⟩ | ⟨rfl, rfl⟩ | ⟨rfl, rfl⟩ | ⟨rfl, rfl⟩ | ⟨rfl, rfl⟩ | ⟨rfl, rfl⟩ | ⟨rfl, rfl⟩ | ⟨rfl, rfl⟩ |
      ⟨rfl, rfl⟩ := hi <;> exact ⟨rfl, fun _ _ => rfl⟩
  exact ⟨_, step_of_branch hfits hdecode hlen hexec, rfl, fun _ => rfl, rfl, rfl⟩

end Sys2Proof.Proofs
end

section
/-! Status flags and the stack (spec/45_flags_stack.md R180 to R196): a flag instruction or a transfer runs as its operation's
effect says; a push or a pull moves SP by one modulo 256, which the statements spell out as numbers (`pushByte_does_pushes`,
`pullReg_does_pullsTo`). -/

namespace Sys2Proof.Proofs

open Sys2Proof.Machine Sys2Proof.Laws

/-! ## What a push and a pull do -/

/-- Pulls move SP up modulo 256. -/
theorem spAfter_eq_add (s : State) (n : Nat) : spAfter s n = s.sp + BitVec.ofNat 8 n := by
  rw [spAfter, mod256, BitVec.ofNat_add, BitVec.ofNat_toNat, BitVec.setWidth_eq]

theorem pulled_eq_byteAt (s : State) (n : Nat) : pulled s n = s.byteAt (stackAddr (s.sp + BitVec.ofNat 8 n)) := by
  rw [pulled, spAfter_eq_add]

/-- Push (R118): modulo 256, SP down by one is SP + 255. -/
theorem pushByte_does_pushes (b : Byte) (s : State) : Does (pushes s b) s (pushByte b s) := by
  rw [pushes, mod256_add_255]
  exact pushByte_does b s

/-- Pull into A, X or Y (R119); into SP there would be two writes of one register. -/
theorem pullReg_does_pullsTo {r : Reg} (hr : r ≠ .sp) (s : State) : Does (pullsTo s r) s (pullReg r s) := by
  rw [pullsTo, pulled_eq_byteAt, spAfter_eq_add]
  exact pullReg_does r hr s

/-! ## The obligations: flags and stack -/

/-- Settles O52: each instruction is `writeFlag` of its one flag. -/
theorem flagInstructionsWriteOneBit : Obligations.FlagInstructionsWriteOneBit := by
  unfold Obligations.FlagInstructionsWriteOneBit
  intro s
  exact ⟨runs_effect .clc s, runs_effect .sec s, runs_effect .cld s, runs_effect .sed s, runs_effect .cli s,
    runs_effect .sei s, runs_effect .clv s⟩

/-- Settles O53: each instruction is a push of its byte. -/
theorem pushInstructions : Obligations.PushInstructions := by
  unfold Obligations.PushInstructions
  intro s
  exact ⟨runs_of_does .pha (pushByte_does_pushes s.a s), runs_of_does .php (pushByte_does_pushes (pushedStatus s.p) s),
    runs_of_does .phx (pushByte_does_pushes s.x s), runs_of_does .phy (pushByte_does_pushes s.y s)⟩

/-- Settles O54: each instruction is a pull into its register, which is not SP. -/
theorem pullInstructions : Obligations.PullInstructions := by
  unfold Obligations.PullInstructions
  intro s
  exact ⟨runs_of_does .pla (pullReg_does_pullsTo (by decide) s), runs_of_does .plx (pullReg_does_pullsTo (by decide) s),
    runs_of_does .ply (pullReg_does_pullsTo (by decide) s)⟩

/-- Settles O55: the pulled byte is P as it stands, bits 4 and 5 included. -/
theorem plpRestoresPRaw : Obligations.PlpRestoresPRaw := by
  unfold Obligations.PlpRestoresPRaw
  intro s
  rw [pulled_eq_byteAt, spAfter_eq_add]
  exact runs_effect .plp s

/-- Settles O56: TSX is a load of X from SP, which sets N and Z; TXS writes SP and no flag. -/
theorem tsxAndTxsTransfer : Obligations.TsxAndTxsTransfer := by
  unfold Obligations.TsxAndTxsTransfer
  exact fun s => ⟨runs_effect .tsx s, runs_effect .txs s⟩

end Sys2Proof.Proofs
end

section
/-! Bit test-and-modify and control instructions (spec/46_bits_control.md R200 to R205): every instruction runs as its
operation's effect says. For TRB the effect has the complement of A as `A ^ 0xFF`; for RTI it counts SP up pull by pull and
joins the two bytes of PC, which the statement spells out as numbers (`pulled_eq_byteAt`, `mod65536_eq_joinBytes`). -/

namespace Sys2Proof.Proofs

open Sys2Proof.Machine Sys2Proof.Laws

/-! ## What TRB stores and what RTI pulls -/

theorem trb8_eq_and_not (m a : Byte) : trb8 m a = m &&& ~~~a := by
  have hcompl : a ^^^ 0xFF#8 = ~~~a := BitVec.xor_allOnes
  rw [trb8, hcompl]

/-- A word is 256 times its high byte plus its low byte. -/
theorem mod65536_eq_joinBytes (hi lo : Byte) : mod65536 (hi.toNat * 256 + lo.toNat) = joinBytes hi lo := by
  rw [← joinBytes_toNat, mod65536, BitVec.ofNat_toNat, BitVec.setWidth_eq]

/-- One pull more moves SP up by one more. -/
theorem add_ofNat_succ (sp : Byte) (n : Nat) : sp + BitVec.ofNat 8 (n + 1) = sp + BitVec.ofNat 8 n + 1#8 := by
  rw [BitVec.ofNat_add, BitVec.add_assoc]

/-- RTI (R205): three pulls, P first, then PC low, then PC high. -/
theorem execRti_does_pulls (s : State) :
    Does { regs := [(.sp, spAfter s 3)], flags := allFlags (pulled s 1),
           pc := some (mod65536 ((pulled s 3).toNat * 256 + (pulled s 2).toNat)) } s (execRti s) := by
  have htwo : s.sp + BitVec.ofNat 8 2 = s.sp + 1#8 + 1#8 := add_ofNat_succ s.sp 1
  have hthree : s.sp + BitVec.ofNat 8 3 = s.sp + 1#8 + 1#8 + 1#8 := htwo ▸ add_ofNat_succ s.sp 2
  simp only [mod65536_eq_joinBytes, pulled_eq_byteAt, spAfter_eq_add, htwo, hthree]
  exact execRti_does s

/-! ## The obligations: bits and control -/

/-- Settles O57: each form modifies the byte at its mode's address, TSB by `m | A` and TRB by `m & ~A`. -/
theorem tsbAndTrbModifyBits : Obligations.TsbAndTrbModifyBits := by
  unfold Obligations.TsbAndTrbModifyBits
  intro s z w
  simp only [← trb8_eq_and_not]
  exact ⟨runs_effect (.tsbZp z) s, runs_effect (.tsbAbs w) s, runs_effect (.trbZp z) s, runs_effect (.trbAbs w) s⟩

/-- Settles O58: JMP is a jump to its operand word, NOP writes nothing. -/
theorem jmpAndNop : Obligations.JmpAndNop := by
  unfold Obligations.JmpAndNop
  exact fun s w => ⟨runs_effect (.jmp w) s, runs_effect .nop s⟩

/-- Settles O59: BRK writes the record alone. -/
theorem brkHalts : Obligations.BrkHalts := by
  unfold Obligations.BrkHalts
  exact runs_effect .brk

/-- Settles O60: RTI is three pulls, into P and then into the two bytes of PC. -/
theorem rtiPullsStatusThenPC : Obligations.RtiPullsStatusThenPC := by
  unfold Obligations.RtiPullsStatusThenPC
  exact fun s => runs_of_does .rti (execRti_does_pulls s)

end Sys2Proof.Proofs
end

section
/-! Exceptions (spec/60_exceptions.md): the order of a step's checks, the closed list of its answers, the state a stop leaves
(`singleStep_of_next`, `singleStep_of_exhausted`), and the observation a completed step emits: its instruction is the
decoded one (`decode_of_fetch`), and the fetch before it changed PC alone. -/

namespace Sys2Proof.Proofs

open Sys2Proof.Machine Sys2Proof.Laws

/-! ## Stops -/

/-- A completed step's outcome is its record, running or halt, and the state left is the next one. -/
theorem singleStep_of_next {s t : State} (h : step s = .next t) :
    singleStep s = some (.running, t) ∨ singleStep s = some (.halt, t) := by
  cases ho : t.outcome with
  | running => exact .inl (by simp only [singleStep, h, ho])
  | halt => exact .inr (by simp only [singleStep, h, ho])

theorem singleStep_of_exhausted {s : State} (h : step s = .fault .addressSpaceExhausted) :
    singleStep s = some (.addressSpaceExhausted, s.setPC Config.topAddr) :=
  singleStep_eq_exhausted_iff.mpr ⟨h, rfl⟩

/-! ## The observation -/

/-- The instruction a fetch delivers is the one the bytes at PC decode to; it fits below 0xFFFF, and PC is left past it. -/
theorem decode_of_fetch {s u : State} {i : Instr} (h : fetchInstr s = .ok (i, u)) :
    (∃ rest, decode (bytesAtPC s) = .ok (i, rest)) ∧ s.pc.toNat + i.length ≤ 65535 ∧
      u = s.setPC (s.pc + BitVec.ofNat 16 i.length) := by
  obtain ⟨g, hg, rfl, hfits, rfl⟩ := fetchInstr_ok h
  rw [madeAt_length hg]
  exact ⟨decode_madeAt hg, hfits, rfl⟩

theorem step_next_iff_fetched {s : State} : (∃ t, step s = .next t) ↔ ∃ i u, fetchInstr s = .ok (i, u) := by
  constructor
  · rintro ⟨t, h⟩
    obtain ⟨i, u, -, hfetch, -⟩ := step_next h
    exact ⟨i, u, hfetch⟩
  · rintro ⟨i, u, hfetch⟩
    obtain ⟨v, -, hstep⟩ := step_next_of_fetch hfetch
    exact ⟨_, hstep⟩

theorem trace_eq_some_iff {s : State} {o : Observation} :
    trace s = some o ↔
      ∃ i u, fetchInstr s = .ok (i, u) ∧ o = ⟨i.mnemonic, i.format, traceOperand i.operand u⟩ := by
  constructor
  · intro h
    cases hf : fetchInstr s with
    | error f =>
      rw [trace_of_error hf] at h
      cases h
    | ok iu =>
      rw [trace_of_fetch (i := iu.1) (u := iu.2) hf] at h
      exact ⟨iu.1, iu.2, rfl, (Option.some.inj h).symm⟩
  · rintro ⟨i, u, hfetch, rfl⟩
    exact trace_of_fetch hfetch

theorem length_of_operand_rel {i : Instr} {d : Byte} (h : i.operand = .rel d) : i.length = 2 := by
  rw [Instr.length, Instr.format, h, Operand.format, Format.length]

/-! ## The obligations -/

/-- Settles O5: the fetch meets the three checks in this order, and a fetched instruction completes. -/
theorem stepEndsInItsFirstFailedCheck : Obligations.StepEndsInItsFirstFailedCheck := by
  unfold Obligations.StepEndsInItsFirstFailedCheck
  refine fun s => ⟨fun htop => step_of_error (fetchInstr_top htop), fun hpc =>
    ⟨fun hnone => step_of_error (fetchInstr_unassigned hpc hnone), fun g hg => ⟨fun hover => ?_, fun hfits => ?_⟩⟩⟩
  · exact step_of_error ((fetchInstr_handler hpc hg).trans (if_neg (Nat.not_le.mpr hover)))
  · exact step_next_iff_fetched.mpr ⟨_, _, (fetchInstr_handler hpc hg).trans (if_pos hfits)⟩

/-- Settles O25: the callback fires when the fetch succeeds, as the step completes; the fetch changes PC alone, so an address
resolves as before the step, and a branch counts from PC + 2. -/
theorem traceObservesEveryCompletedStep : Obligations.TraceObservesEveryCompletedStep := by
  unfold Obligations.TraceObservesEveryCompletedStep
  refine fun s => ⟨?fires, fun o ho => ?content⟩
  case fires =>
    calc (∃ o, trace s = some o)
      _ ↔ ∃ i u, fetchInstr s = .ok (i, u) := by
        constructor
        · rintro ⟨o, ho⟩
          obtain ⟨i, u, hfetch, -⟩ := trace_eq_some_iff.mp ho
          exact ⟨i, u, hfetch⟩
        · rintro ⟨i, u, hfetch⟩
          exact ⟨_, trace_of_fetch hfetch⟩
      _ ↔ ∃ t, step s = .next t := step_next_iff_fetched.symm
  case content =>
    obtain ⟨i, u, hfetch, rfl⟩ := trace_eq_some_iff.mp ho
    obtain ⟨⟨rest, hdecode⟩, hfits, rfl⟩ := decode_of_fetch hfetch
    refine ⟨i, rest, hdecode, rfl, rfl, ?_⟩
    cases hop : i.operand with
    | implied | acc | imm v => rfl
    | mem m => simp only [traceOperand, resolve_setPC]
    | rel d =>
      rw [length_of_operand_rel hop] at hfits ⊢
      simp only [traceOperand, branchTarget_setPC_add_two hfits]

/-- Settles O7: the answers of a step, and of the single-step entry to each of them. -/
theorem stepNeverRefuses : Obligations.StepNeverRefuses := by
  unfold Obligations.StepNeverRefuses
  refine fun s => ⟨step_cases s, fun i u hfetch => step_next_iff_fetched.mpr ⟨i, u, hfetch⟩, ?_⟩
  rcases step_cases s with ⟨t, h⟩ | h | h
  · rcases singleStep_of_next h with hs | hs <;> exact Option.isSome_of_eq_some hs
  · exact Option.isSome_of_eq_some (singleStep_of_exhausted h)
  · exact Option.isSome_of_eq_some (singleStep_of_unassigned h)

/-- Settles O8: a completed step answers running or halt, and each of the two stops sets PC in the state before the step. -/
theorem errorStopsChangeOnlyPC : Obligations.ErrorStopsChangeOnlyPC := by
  unfold Obligations.ErrorStopsChangeOnlyPC
  intro s t o h hrunning hhalt
  rcases step_cases s with ⟨u, hstep⟩ | hstep | hstep
  · rcases singleStep_of_next hstep with hs | hs
    · cases hs.symm.trans h
      exact absurd rfl hrunning
    · cases hs.symm.trans h
      exact absurd rfl hhalt
  · cases (singleStep_of_exhausted hstep).symm.trans h
    exact ⟨rfl, .inr ⟨rfl, rfl⟩⟩
  · cases (singleStep_of_unassigned hstep).symm.trans h
    exact ⟨rfl, .inl ⟨rfl, rfl⟩⟩

/-- Settles O16: the length check comes before the copy. -/
theorem oversizedLoadIsRejected : Obligations.OversizedLoadIsRejected := by
  unfold Obligations.OversizedLoadIsRejected
  exact fun bytes s hlong => ⟨if_neg (Nat.not_le.mpr hlong), rfl⟩

end Sys2Proof.Proofs
end

section
/-! The host operations (spec/70_reset_and_hazards.md): `reset()` is the reset state over the memory as it was; `loadProgram`
is one list of bytes written from address 0 (`read_writeAll`); `execute()` either goes on from a single step or ends with it
(`execute_succ_cases`). -/

namespace Sys2Proof.Proofs

open Sys2Proof.Machine Sys2Proof.Laws

/-! ## What a load leaves in memory -/

/-- Loaded bytes start at address 0 (R243), so an address is the index of its byte. -/
theorem read_writeAll_loadBase {bytes : List Byte} (hfits : bytes.length ≤ 65536) (m : Memory) (a : Addr) :
    (m.writeAll (BitVec.ofNat 16 Config.loadBase) bytes).read a = bytes[a.toNat]?.getD (m.read a) := by
  have hindex : a - BitVec.ofNat 16 Config.loadBase = a := BitVec.sub_zero a
  rw [read_writeAll _ _ _ _ hfits, hindex]

/-! ## Runs under fuel -/

/-- `execute()` with fuel goes on from a single step that is running, and ends with any other. -/
theorem execute_succ_cases (s : State) :
    (∃ u, singleStep s = some (.running, u) ∧ ∀ n, execute (n + 1) s = execute n u) ∨
      ((∀ u, singleStep s ≠ some (.running, u)) ∧ ∀ n, execute (n + 1) s = singleStep s) := by
  by_cases h : ∃ u, singleStep s = some (.running, u)
  · obtain ⟨u, hu⟩ := h
    exact .inl ⟨u, hu, fun n => by simp only [execute, hu]⟩
  · refine .inr ⟨not_exists.mp h, fun n => ?_⟩
    rw [execute]
    split
    next u hu => exact absurd ⟨u, hu⟩ h
    next => rfl

theorem execute_one (s : State) : execute 1 s = singleStep s := by
  rcases execute_succ_cases s with ⟨u, hu, hgoes⟩ | ⟨-, hends⟩
  · exact (hgoes 0).trans hu.symm
  · exact hends 0

theorem execute_add_of_running {n : Nat} (m : Nat) {s t : State} (h : execute n s = some (.running, t)) :
    execute (n + m) s = execute m t := by
  induction n generalizing s with
  | zero =>
    cases h
    rw [Nat.zero_add]
  | succ n ih =>
    rcases execute_succ_cases s with ⟨u, -, hgoes⟩ | ⟨hnot, hends⟩
    · rw [Nat.succ_add, hgoes]
      exact ih ((hgoes n).symm.trans h)
    · exact absurd ((hends n).symm.trans h) (hnot t)

theorem execute_add_of_ended {n : Nat} (k : Nat) {s t : State} {o : StepOutcome} (h : execute n s = some (o, t))
    (ho : o ≠ .running) : execute (n + k) s = some (o, t) := by
  induction n generalizing s with
  | zero =>
    cases h
    exact absurd rfl ho
  | succ n ih =>
    rw [Nat.succ_add]
    rcases execute_succ_cases s with ⟨u, -, hgoes⟩ | ⟨-, hends⟩
    · exact (hgoes (n + k)).trans (ih ((hgoes n).symm.trans h))
    · exact (hends (n + k)).trans ((hends n).symm.trans h)

/-! ## The obligations: host operations -/

/-- Settles O15: a load within memory is one `writeAll` from address 0, which keeps the canonical form. -/
theorem loadProgramReadsBack : Obligations.LoadProgramReadsBack := by
  unfold Obligations.LoadProgramReadsBack
  refine fun bytes s hfits => ⟨_, if_pos hfits, fun k hk => ?_, fun a ha => ?_, rfl, fun hs => writeAll_wf hs _ _⟩
  · have haddr : (BitVec.ofNat 16 k).toNat = k := Nat.mod_eq_of_lt (Nat.lt_of_lt_of_le hk hfits)
    rw [State.setMem_byteAt, read_writeAll_loadBase hfits, haddr, List.getElem?_eq_getElem hk, Option.getD_some]
  · rw [State.setMem_byteAt, read_writeAll_loadBase hfits, List.getElem?_eq_none ha, Option.getD_none, State.byteAt]

/-- Settles O17: the fuel splits where a run is left running, and is not looked at once it has ended. -/
theorem moreFuelDoesNotChangeAnEndedRun : Obligations.MoreFuelDoesNotChangeAnEndedRun := by
  unfold Obligations.MoreFuelDoesNotChangeAnEndedRun
  exact ⟨execute_one, fun _ m _ _ h => execute_add_of_running m h, fun _ k _ _ _ h ho => execute_add_of_ended k h ho⟩

/-- Settles O14: `reset()` is the reset state (`resetStateIsAllZero`) with the memory as it was. -/
theorem hostResetZeroesAllButMemory : Obligations.HostResetZeroesAllButMemory := by
  unfold Obligations.HostResetZeroesAllButMemory
  obtain ⟨hreg, hp, hpc, hic, -⟩ := resetStateIsAllZero
  exact fun s => ⟨fun r => (State.setMem_reg State.reset s.mem r).trans (hreg r), hp, hpc, hic, fun _ => rfl, rfl⟩

end Sys2Proof.Proofs
end
